-- ==== Sys2Proof/Word.lean ====
section
/-! DEFINITION. The word types of the MK3870 (spec/00_scope.md R6, R7): 8-bit data, addresses of
`ADDR_BITS` bits, 16-bit operands and register pairs, 6-bit scratchpad numbers. -/

namespace Sys2Proof

/-- A data byte (R6). -/
abbrev Byte := BitVec 8

/-- `ADDR_BITS`, the named parameter of R7 and D1: the width of P0, P, DC and DC1. Its value 16 is the spec's decision
(DESIGN CHOICE, log 10); a model of a device with fewer address bits gives it that number here. -/
abbrev addrBits : Nat := 16

/-- A Main Memory address: the contents of P0, P, DC or DC1 (R7, spec/10_state.md R30, R33 to R35). -/
abbrev Addr := BitVec addrBits

/-- The two-byte operand of JMP, PI and DCI, and a linkage register pair: 16 bits whatever `addrBits` is
(spec/30_encoding.md R96, spec/10_state.md R23). -/
abbrev Word16 := BitVec 16

/-- The number of a scratchpad register, 0 to 63: the width of IS (R22, R28). -/
abbrev ScratchIdx := BitVec 6

end Sys2Proof
end

