-- ==== Sys2Proof/Config.lean ====
section
/-! DEFINITION. What an implementation fixes (the open parameters of spec/00_scope.md R7) and the free values.
The parameters are plain data that State carries and no step changes (R39), so that every claim about all states
is a claim about all platforms. -/

namespace Sys2Proof

/-- The name of an interrupt source, as a number (spec/60_exceptions.md R324: a platform's sources have names). -/
abbrev IntSource := Nat

/-- What stands at a Main Memory address (spec/20_memory.md R62). -/
inductive MemKind where
  /-- program memory: reads give the fixed byte, stores are refused (R62, R63) -/
  | rom
  /-- reads give the byte last written (R62) -/
  | ram
  /-- nothing: a read has no value (R62) -/
  | unpopulated
deriving DecidableEq, Repr

/-- A stretch of the Main Memory map: `size` addresses from `base` on. -/
structure Region where
  kind : MemKind
  base : Nat
  size : Nat
deriving DecidableEq, Repr

/-- Which function the parameter `bcdAdjust` is (R7, spec/41_arithmetic_logical.md R135). A function is no plain data, so
the parameter is held as the name of one. -/
inductive BcdAdjust where
  /-- the default `decAdd` of R135 (D11, PRESUMED by the spec, log 16) -/
  | decAdd
  /-- another function, the `k`-th: `Config.bcdAdjust k`, of which nothing is known (R135: "keeps `bcdAdjust`
  uninterpreted") -/
  | uninterpreted (k : Nat)
deriving DecidableEq, Repr

/-- The open parameters of spec/00_scope.md R7 that are data: the Main Memory map (the first region that holds an
address decides its kind, an address in none is unpopulated), the interrupt sources with their vector addresses in
priority order, highest first (spec/60_exceptions.md R324), which of the two LISL/LISU encodings is decoded
(spec/30_encoding.md R94), and the decimal adjust of AMD and ASD (spec/41_arithmetic_logical.md R135). -/
structure Platform where
  memMap : List Region
  intVector : List (IntSource × Addr)
  lisEncodingAsPrinted : Bool
  bcdAdjust : BcdAdjust
deriving DecidableEq, Repr

/-- The FREE VALUE of a port read that State's `portIn` does not answer: what port `p` answers to the `n`-th port read
of the run (spec/20_memory.md R66: the value is supplied by the platform; spec/93_implementation_defined.md U10:
`any value` to the core). Nothing can be proved about the value. DESIGN CHOICE of the form, safe (log 7). -/
opaque Config.portInput (n : Nat) (p : Byte) : Byte

/-- The `k`-th UNINTERPRETED decimal adjust: the result and the flags, O Z C S from bit 3 down, of adding `b` to A = `a`
(R135; spec/93_implementation_defined.md U9: result and flags of AMD and ASD are the parameter's). A FREE VALUE for each
pair of operands: nothing can be proved about it. DESIGN CHOICE of the form, safe (log 16). -/
opaque Config.bcdAdjust (k : Nat) (a b : Byte) : Byte × BitVec 4

end Sys2Proof
end

