-- ==== Sys2Proof/Syntax.lean ====
section
/-! DEFINITION. The instructions of the MK3870: one constructor for each mnemonic of spec/opcode_table.json,
the nine alternative mnemonics of spec/30_encoding.md R106 among them (log 28), and one constructor for the ten
first bytes that select no instruction (R102). Constructors stand in the order of the source's Table 8-3. -/

namespace Sys2Proof

/-- A scratchpad operand, the field `r` of the F-SHORT format (spec/30_encoding.md R98). The field value 0xF is no
operand: "Illegal OP code". -/
inductive Scr where
  /-- field 0 to 0xB: registers 0 to 11 directly -/
  | direct (n : Fin 12)
  /-- field 0xC: through IS, IS unmodified -/
  | viaIS
  /-- field 0xD: through IS, ISL incremented afterwards -/
  | viaISInc
  /-- field 0xE: through IS, ISL decremented afterwards -/
  | viaISDec
deriving DecidableEq, Repr

inductive Instr where
  -- Arithmetic and Logical Group (spec/41_arithmetic_logical.md)
  /-- LNK, R140 -/
  | lnk
  /-- AI ii, R141 -/
  | ai (ii : Byte)
  /-- ADC, R142 -/
  | adc
  /-- AM, R143 -/
  | am
  /-- AMD, R144 -/
  | amd
  /-- AS r, R145 -/
  | asR (r : Scr)
  /-- ASD r, R146 -/
  | asdR (r : Scr)
  /-- NI ii, R147 -/
  | ni (ii : Byte)
  /-- NM, R148 -/
  | nm
  /-- NS r, R149 -/
  | nsR (r : Scr)
  /-- CI ii, R150 -/
  | ci (ii : Byte)
  /-- CM, R151 -/
  | cm
  /-- COM, R152 -/
  | com
  /-- DS r, R153 -/
  | dsR (r : Scr)
  /-- XI ii, R154 -/
  | xi (ii : Byte)
  /-- XM, R155 -/
  | xm
  /-- XS r, R156 -/
  | xsR (r : Scr)
  /-- INC, R157 -/
  | inc
  /-- OI ii, R158 -/
  | oi (ii : Byte)
  /-- OM, R159 -/
  | om
  /-- SL 1, R160 -/
  | sl1
  /-- SL 4, R161 -/
  | sl4
  /-- SR 1, R162 -/
  | sr1
  /-- SR 4, R163 -/
  | sr4
  -- Branch, Jump, Call and Return Group (spec/42_branch_jump_call_return.md)
  /-- BR aa, R183: other name of BF 0 -/
  | br (aa : Byte)
  /-- BF t,aa, R182 -/
  | bf (t : BitVec 4) (aa : Byte)
  /-- BM aa, R184: other name of BF 1 -/
  | bm (aa : Byte)
  /-- BNC aa, R185: other name of BF 2 -/
  | bnc (aa : Byte)
  /-- BNO aa, R186: other name of BF 8 -/
  | bno (aa : Byte)
  /-- BNZ aa, R187: other name of BF 4 -/
  | bnz (aa : Byte)
  /-- BR7 aa, R188 -/
  | br7 (aa : Byte)
  /-- BC aa, R189: other name of BT 2 -/
  | bc (aa : Byte)
  /-- BP aa, R190: other name of BT 1 -/
  | bp (aa : Byte)
  /-- BT t,aa, R181 -/
  | bt (t : BitVec 3) (aa : Byte)
  /-- BZ aa, R191: other name of BT 4 -/
  | bz (aa : Byte)
  /-- JMP aaaa, R196 -/
  | jmp (aaaa : Word16)
  /-- LR P0,Q, R197 -/
  | lrP0Q
  /-- PI iiii, R198 -/
  | pi (iiii : Word16)
  /-- PK, R199 -/
  | pk
  /-- POP, R200 -/
  | pop
  -- Accumulator Data Movement Group (spec/43_accumulator_data_movement.md)
  /-- CLR, R221: other name of LIS 0 -/
  | clr
  /-- LR A,KU, R222 -/
  | lrAKU
  /-- LR A,KL, R223 -/
  | lrAKL
  /-- LR KU,A, R224 -/
  | lrKUA
  /-- LR KL,A, R225 -/
  | lrKLA
  /-- LR A,QU, R226 -/
  | lrAQU
  /-- LR A,QL, R227 -/
  | lrAQL
  /-- LR QU,A, R228 -/
  | lrQUA
  /-- LR QL,A, R229 -/
  | lrQLA
  /-- LR A,r, R230 -/
  | lrAR (r : Scr)
  /-- LR r,A, R231 -/
  | lrRA (r : Scr)
  /-- LI ii, R232 -/
  | li (ii : Byte)
  /-- LIS i, R233 -/
  | lis (i : BitVec 4)
  /-- LM, R234 -/
  | lm
  /-- ST, R235 -/
  | st
  -- Address Register Group (spec/44_address_register.md)
  /-- DCI iiii, R251 -/
  | dci (iiii : Word16)
  /-- XDC, R252 -/
  | xdc
  /-- LR DC,Q, R253 -/
  | lrDCQ
  /-- LR Q,DC, R254 -/
  | lrQDC
  /-- LR DC,H, R255 -/
  | lrDCH
  /-- LR H,DC, R256 -/
  | lrHDC
  /-- LISL bbb, R257 -/
  | lisl (bbb : BitVec 3)
  /-- LISU bbb, R258 -/
  | lisu (bbb : BitVec 3)
  /-- LR IS,A, R259 -/
  | lrISA
  /-- LR A,IS, R260 -/
  | lrAIS
  /-- LR P,K, R261 -/
  | lrPK
  /-- LR K,P, R262 -/
  | lrKP
  -- Input/Output Group (spec/45_input_output.md)
  /-- IN pp, R282 -/
  | inP (pp : Byte)
  /-- INS p, R283 -/
  | insP (p : BitVec 4)
  /-- OUT pp, R285 -/
  | outP (pp : Byte)
  /-- OUTS p, R286 -/
  | outsP (p : BitVec 4)
  -- CPU Control Group (spec/46_cpu_control.md)
  /-- DI, R301 -/
  | di
  /-- EI, R302 -/
  | ei
  /-- LR W,J, R303 -/
  | lrWJ
  /-- LR J,W, R304 -/
  | lrJW
  /-- NOP, R305 -/
  | nop
  /-- A first byte that selects no instruction: 2D, 2E, 2F, 3F, 4F, 5F, CF, DF, EF, FF (spec/30_encoding.md R102) -/
  | undefined (op : Byte)
deriving DecidableEq, Repr

end Sys2Proof
end

