-- ==== Sys2Proof/WellFormed.lean ====
section
/-! DEFINITION. Which terms of `Instr` stand for an instruction's words, each word for one term.
Operand ranges are carried by the types of the operands; two checks remain. -/

namespace Sys2Proof

/-- The ten first bytes that select no instruction (spec/30_encoding.md R102). -/
def undefinedOpcodes : List Byte :=
  [0x2D, 0x2E, 0x2F, 0x3F, 0x4F, 0x5F, 0xCF, 0xDF, 0xEF, 0xFF]

/-- The BT masks that have a mnemonic of their own: BP, BC, BZ (R106). -/
def btNamedMasks : List (BitVec 3) := [1, 2, 4]

/-- The BF masks that have a mnemonic of their own: BR, BM, BNC, BNZ, BNO (R106). -/
def bfNamedMasks : List (BitVec 4) := [0, 1, 2, 4, 8]

/-- A term is well formed when it is THE term of its words. `undefined` carries one of the ten bytes of R102; where
R106 gives the words of BT, BF or LIS a second mnemonic, the term is that mnemonic's (a DESIGN CHOICE of names, safe:
both terms have the same words and the same meaning, log 28). -/
def Instr.wellFormed : Instr → Bool
  | .bt t _ => !btNamedMasks.contains t
  | .bf t _ => !bfNamedMasks.contains t
  | .lis i => i != 0
  | .undefined op => undefinedOpcodes.contains op
  | .lnk | .ai _ | .adc | .am | .amd | .asR _ | .asdR _ | .ni _ | .nm | .nsR _ | .ci _ | .cm | .com | .dsR _
  | .xi _ | .xm | .xsR _ | .inc | .oi _ | .om | .sl1 | .sl4 | .sr1 | .sr4
  | .br _ | .bm _ | .bnc _ | .bno _ | .bnz _ | .br7 _ | .bc _ | .bp _ | .bz _
  | .jmp _ | .lrP0Q | .pi _ | .pk | .pop
  | .clr | .lrAKU | .lrAKL | .lrKUA | .lrKLA | .lrAQU | .lrAQL | .lrQUA | .lrQLA | .lrAR _ | .lrRA _
  | .li _ | .lm | .st
  | .dci _ | .xdc | .lrDCQ | .lrQDC | .lrDCH | .lrHDC | .lisl _ | .lisu _ | .lrISA | .lrAIS | .lrPK | .lrKP
  | .inP _ | .insP _ | .outP _ | .outsP _
  | .di | .ei | .lrWJ | .lrJW | .nop => true

end Sys2Proof
end

