-- ==== Sys2Proof/Decode.lean ====
section
/-! DEFINITION. Decoding and encoding, from the opcode map of spec/30_encoding.md R101. The decoder is total: every
first byte selects a term (the ten bytes of R102 select `Instr.undefined`, which names the byte), and a list of bytes
that ends inside an instruction is rejected by name. `asPrinted` is the switch `lisEncodingAsPrinted` of R94. -/

namespace Sys2Proof

/-- The value R7 gives `lisEncodingAsPrinted`: follow the source (LISL 60 to 67, LISU 68 to 6F). PRESUMED reverse
convention of the family is the switch's other value (D15, log 20). -/
def lisEncodingDefault : Bool := true

/-- How many bytes the instruction with first byte `op` has (R91); an undefined first byte counts as one (R102). -/
def instrLength (op : Byte) : Nat :=
  if op.toNat < 0x20 then 1
  else if op.toNat < 0x28 then 2
  else if op.toNat < 0x2B then 3
  else if op.toNat < 0x80 then 1
  else if op.toNat < 0x88 then 2
  else if op.toNat < 0x8F then 1
  else if op.toNat < 0xA0 then 2
  else 1

/-- The scratchpad operand of the 4-bit field `n` (R98): none for 0xF, "Illegal OP code". -/
def scrOfField (n : Nat) : Option Scr :=
  if h : n < 12 then some (.direct ⟨n, h⟩)
  else if n = 12 then some .viaIS
  else if n = 13 then some .viaISInc
  else if n = 14 then some .viaISDec
  else none

/-- A row of scratchpad-operand instructions (R98, R102): field 0xF selects no instruction. -/
def decodeScrRow (f : Scr → Instr) (op : Byte) : Instr :=
  match scrOfField (op.toNat % 16) with
  | some r => f r
  | none => .undefined op

/-- Row 0 of the opcode map (R101). -/
def decodeRow0 (op : Byte) : Instr :=
  match op.toNat % 16 with
  | 0x0 => .lrAKU
  | 0x1 => .lrAKL
  | 0x2 => .lrAQU
  | 0x3 => .lrAQL
  | 0x4 => .lrKUA
  | 0x5 => .lrKLA
  | 0x6 => .lrQUA
  | 0x7 => .lrQLA
  | 0x8 => .lrKP
  | 0x9 => .lrPK
  | 0xA => .lrAIS
  | 0xB => .lrISA
  | 0xC => .pk
  | 0xD => .lrP0Q
  | 0xE => .lrQDC
  | _ => .lrDCQ

/-- Row 1 of the opcode map (R101). -/
def decodeRow1 (op : Byte) : Instr :=
  match op.toNat % 16 with
  | 0x0 => .lrDCH
  | 0x1 => .lrHDC
  | 0x2 => .sr1
  | 0x3 => .sl1
  | 0x4 => .sr4
  | 0x5 => .sl4
  | 0x6 => .lm
  | 0x7 => .st
  | 0x8 => .com
  | 0x9 => .lnk
  | 0xA => .di
  | 0xB => .ei
  | 0xC => .pop
  | 0xD => .lrWJ
  | 0xE => .lrJW
  | _ => .inc

/-- Row 2 of the opcode map (R101): `b1` and `b2` are the bytes after the first; of a two-byte operand the first is
the upper byte (spec/20_memory.md R68, D4, log 11). -/
def decodeRow2 (op b1 b2 : Byte) : Instr :=
  match op.toNat % 16 with
  | 0x0 => .li b1
  | 0x1 => .ni b1
  | 0x2 => .oi b1
  | 0x3 => .xi b1
  | 0x4 => .ai b1
  | 0x5 => .ci b1
  | 0x6 => .inP b1
  | 0x7 => .outP b1
  | 0x8 => .pi (b1 ++ b2)
  | 0x9 => .jmp (b1 ++ b2)
  | 0xA => .dci (b1 ++ b2)
  | 0xB => .nop
  | 0xC => .xdc
  | _ => .undefined op

/-- Row 6 of the opcode map (R94): bit 3 selects LISL or LISU, which way round is the switch's. -/
def decodeRow6 (asPrinted : Bool) (op : Byte) : Instr :=
  if (op.toNat % 16 < 8) = asPrinted then .lisl (op.setWidth 3) else .lisu (op.setWidth 3)

/-- Row 7 of the opcode map (R101): 70 is CLR (R106). -/
def decodeRow7 (op : Byte) : Instr :=
  if op.setWidth 4 = 0#4 then .clr else .lis (op.setWidth 4)

/-- Row 8 of the opcode map (R97, R101); 8F is BR7 by D14 (PRESUMED by the spec, log 19). -/
def decodeRow8 (op b1 : Byte) : Instr :=
  match op.toNat % 16 with
  | 0x1 => .bp b1
  | 0x2 => .bc b1
  | 0x4 => .bz b1
  | 0x8 => .am
  | 0x9 => .amd
  | 0xA => .nm
  | 0xB => .om
  | 0xC => .xm
  | 0xD => .cm
  | 0xE => .adc
  | 0xF => .br7 b1
  | _ => .bt (op.setWidth 3) b1

/-- Row 9 of the opcode map (R97, R101). -/
def decodeRow9 (op b1 : Byte) : Instr :=
  match op.toNat % 16 with
  | 0x0 => .br b1
  | 0x1 => .bm b1
  | 0x2 => .bnc b1
  | 0x4 => .bnz b1
  | 0x8 => .bno b1
  | _ => .bf (op.setWidth 4) b1

/-- The instruction whose first byte is `op` and whose next two bytes, where it has them, are `b1` and `b2`: the
opcode map of R101, row by row. -/
def decodeBytes (asPrinted : Bool) (op b1 b2 : Byte) : Instr :=
  match op.toNat / 16 with
  | 0x0 => decodeRow0 op
  | 0x1 => decodeRow1 op
  | 0x2 => decodeRow2 op b1 b2
  | 0x3 => decodeScrRow .dsR op
  | 0x4 => decodeScrRow .lrAR op
  | 0x5 => decodeScrRow .lrRA op
  | 0x6 => decodeRow6 asPrinted op
  | 0x7 => decodeRow7 op
  | 0x8 => decodeRow8 op b1
  | 0x9 => decodeRow9 op b1
  | 0xA => .insP (op.setWidth 4)
  | 0xB => .outsP (op.setWidth 4)
  | 0xC => decodeScrRow .asR op
  | 0xD => decodeScrRow .asdR op
  | 0xE => decodeScrRow .xsR op
  | _ => decodeScrRow .nsR op

/-- Why a list of bytes holds no whole instruction. -/
inductive DecodeError where
  /-- the list ends before the instruction's last byte; raised by `decode` only, the machine fetches every byte (safe) -/
  | truncated
deriving DecidableEq, Repr

/-- Decodes one instruction from the front of a list of bytes, in ascending address order (R90, R91), and gives the
bytes after it. -/
def decode (asPrinted : Bool) (bytes : List Byte) : Except DecodeError (Instr × List Byte) :=
  match bytes with
  | [] => .error .truncated
  | op :: rest =>
    if rest.length + 1 < instrLength op then .error .truncated
    else .ok (decodeBytes asPrinted op (rest.getD 0 0) (rest.getD 1 0), rest.drop (instrLength op - 1))

/-- The 4-bit field of a scratchpad operand (R98). -/
def Scr.field : Scr → BitVec 4
  | .direct n => BitVec.ofNat 4 n.val
  | .viaIS => 0xC
  | .viaISInc => 0xD
  | .viaISDec => 0xE

/-- A first byte of two 4-bit halves (format F-SHORT, R93). -/
def shortByte (opcode operand : BitVec 4) : Byte := opcode ++ operand

/-- A three-byte instruction: first byte, upper operand byte, lower operand byte (format F-EXT16, R96, R68). -/
def extBytes (op : Byte) (operand : Word16) : List Byte :=
  [op, operand.extractLsb' 8 8, operand.extractLsb' 0 8]

/-- The bytes of an instruction in ascending address order (the object codes of R101 and the formats R92 to R97). -/
def encode (asPrinted : Bool) : Instr → List Byte
  | .lnk => [0x19]
  | .ai ii => [0x24, ii]
  | .adc => [0x8E]
  | .am => [0x88]
  | .amd => [0x89]
  | .asR r => [shortByte 0xC r.field]
  | .asdR r => [shortByte 0xD r.field]
  | .ni ii => [0x21, ii]
  | .nm => [0x8A]
  | .nsR r => [shortByte 0xF r.field]
  | .ci ii => [0x25, ii]
  | .cm => [0x8D]
  | .com => [0x18]
  | .dsR r => [shortByte 0x3 r.field]
  | .xi ii => [0x23, ii]
  | .xm => [0x8C]
  | .xsR r => [shortByte 0xE r.field]
  | .inc => [0x1F]
  | .oi ii => [0x22, ii]
  | .om => [0x8B]
  | .sl1 => [0x13]
  | .sl4 => [0x15]
  | .sr1 => [0x12]
  | .sr4 => [0x14]
  | .br aa => [0x90, aa]
  | .bf t aa => [shortByte 0x9 t, aa]
  | .bm aa => [0x91, aa]
  | .bnc aa => [0x92, aa]
  | .bno aa => [0x98, aa]
  | .bnz aa => [0x94, aa]
  | .br7 aa => [0x8F, aa]
  | .bc aa => [0x82, aa]
  | .bp aa => [0x81, aa]
  | .bt t aa => [shortByte 0x8 (t.setWidth 4), aa]
  | .bz aa => [0x84, aa]
  | .jmp aaaa => extBytes 0x29 aaaa
  | .lrP0Q => [0x0D]
  | .pi iiii => extBytes 0x28 iiii
  | .pk => [0x0C]
  | .pop => [0x1C]
  | .clr => [0x70]
  | .lrAKU => [0x00]
  | .lrAKL => [0x01]
  | .lrKUA => [0x04]
  | .lrKLA => [0x05]
  | .lrAQU => [0x02]
  | .lrAQL => [0x03]
  | .lrQUA => [0x06]
  | .lrQLA => [0x07]
  | .lrAR r => [shortByte 0x4 r.field]
  | .lrRA r => [shortByte 0x5 r.field]
  | .li ii => [0x20, ii]
  | .lis i => [shortByte 0x7 i]
  | .lm => [0x16]
  | .st => [0x17]
  | .dci iiii => extBytes 0x2A iiii
  | .xdc => [0x2C]
  | .lrDCQ => [0x0F]
  | .lrQDC => [0x0E]
  | .lrDCH => [0x10]
  | .lrHDC => [0x11]
  | .lisl bbb => [shortByte 0x6 (BitVec.ofBool (!asPrinted) ++ bbb)]
  | .lisu bbb => [shortByte 0x6 (BitVec.ofBool asPrinted ++ bbb)]
  | .lrISA => [0x0B]
  | .lrAIS => [0x0A]
  | .lrPK => [0x09]
  | .lrKP => [0x08]
  | .inP pp => [0x26, pp]
  | .insP p => [shortByte 0xA p]
  | .outP pp => [0x27, pp]
  | .outsP p => [shortByte 0xB p]
  | .di => [0x1A]
  | .ei => [0x1B]
  | .lrWJ => [0x1D]
  | .lrJW => [0x1E]
  | .nop => [0x2B]
  | .undefined op => [op]

/-- Byte `k` of an instruction given as one number, the first byte the least significant. -/
def tableByte (nbits w k : Nat) : Byte := BitVec.ofNat 8 (w % 2 ^ nbits / 2 ^ (8 * k))

/-- The host's reading of the decoder: the instruction whose bytes, first byte least significant, are the `nbits` bits
of `w` followed by zeros, under the switch's default. -/
def decodeTableWord (nbits w : Nat) : Option Instr :=
  match decode lisEncodingDefault [tableByte nbits w 0, tableByte nbits w 1, tableByte nbits w 2] with
  | .ok (i, _) => some i
  | .error _ => none

end Sys2Proof
end

