-- ==== Sys2Proof/Machine/Memory.lean ====
section
/-! DEFINITION. Main Memory (spec/20_memory.md R60 to R63) as a list of (address, byte) pairs in one canonical form,
and the map that says what stands at each address. -/

namespace Sys2Proof.Machine

/-- Main Memory: the bytes that hold a value, addresses strictly rising. An address that is not listed has NO value
(R41, R62), so no entry can equal what an unlisted address reads as (log 3). -/
abbrev Memory := List Host.Cell

/-- How many addresses Main Memory has (R60: 2^`ADDR_BITS`). -/
def memorySize : Nat := 2 ^ addrBits

/-- The byte at an address, none where nothing was written (R41, R62). -/
def Memory.read (m : Memory) (a : Nat) : Option Byte :=
  match m with
  | [] => none
  | (k, v) :: rest => if k = a then some v else Memory.read rest a

/-- Writes one byte and keeps the list sorted. -/
def Memory.write (m : Memory) (a : Nat) (v : Byte) : Memory :=
  match m with
  | [] => [(a, v)]
  | (k, w) :: rest =>
    if a < k then (a, v) :: (k, w) :: rest
    else if a = k then (a, v) :: rest
    else (k, w) :: Memory.write rest a v

/-- The canonical form: addresses strictly rising, all of them inside Main Memory. -/
def Memory.wf (m : Memory) : Bool :=
  match m with
  | [] => true
  | (k, _) :: rest => decide (k < memorySize) && rest.all (fun c => decide (k < c.1)) && Memory.wf rest

/-- Whether a region of the map holds an address. -/
def regionHolds (g : Region) (a : Nat) : Bool := decide (g.base ≤ a) && decide (a < g.base + g.size)

/-- What stands at an address: the kind of the first region that holds it, unpopulated where none does (R62). -/
def kindAt (pl : Platform) (a : Addr) : MemKind :=
  match pl.memMap.find? (fun g => regionHolds g a.toNat) with
  | some g => g.kind
  | none => .unpopulated

/-- The platform State.reset takes, one choice among those R7 leaves open: the whole address space is RAM (log 4), no
interrupt source (log 5), LISL and LISU as the source prints them (log 20), the default decimal adjust (log 16). DESIGN
CHOICE, unsafe. -/
def resetPlatform : Platform :=
  { memMap := [⟨.ram, 0, memorySize⟩]
    intVector := []
    lisEncodingAsPrinted := lisEncodingDefault
    bcdAdjust := .decAdd }

end Sys2Proof.Machine
end

