-- ==== Sys2Proof/Machine/State.lean ====
section
/-! DEFINITION. The state of the machine as plain data (spec/10_state.md R20), the reasons a step can stop, and the
state after reset (R40). INVENTORY.md lists every field with its rule and its reset value. -/

namespace Sys2Proof.Machine

/-- The four status flags (spec/10_state.md R25, R26): W[3], W[2], W[1], W[0]. -/
structure Flags where
  /-- Overflow -/
  o : Bool
  /-- Zero -/
  z : Bool
  /-- Carry -/
  c : Bool
  /-- Sign: true when the result is positive (bit 7 is 0) -/
  s : Bool
deriving DecidableEq, Repr

/-- What the core reports to the environment. -/
inductive Event where
  /-- port `port` was read and answered `value` (spec/20_memory.md R66) -/
  | portRead (port value : Byte)
  /-- `value` was handed to port `port` (spec/20_memory.md R67) -/
  | portWrite (port value : Byte)
  /-- the request of `source` was accepted (spec/60_exceptions.md R325, R328) -/
  | interrupt (source : IntSource)
deriving DecidableEq, Repr

/-- Everything the spec gives the machine, and the model's own fields for the environment's inputs and the event log. -/
structure State where
  /-- A, the Accumulator (R21) -/
  a : Byte
  /-- r[0] to r[63], the scratchpad (R22) -/
  scratch : Vector Byte 64
  /-- O, Z, C, S of W (R25, R26) -/
  flags : Flags
  /-- ICB, bit 4 of W (R25, R27) -/
  icb : Bool
  /-- IS (R28) -/
  is : ScratchIdx
  /-- P0, the Program Counter (R30) -/
  p0 : Addr
  /-- P, the Program Counter Stack Register (R33) -/
  p : Addr
  /-- DC, the Data Counter (R34) -/
  dc : Addr
  /-- DC1, the Auxiliary Data Counter (R35) -/
  dc1 : Addr
  /-- the hold-off after a privileged instruction (R38) -/
  intInhibit : Bool
  /-- Main Memory (R60) -/
  mem : Memory
  /-- the open parameters of R7, fixed for a run (R39): no step changes them -/
  platform : Platform
  /-- the model's own: the environment's answers to the coming port reads (R66, log 7) -/
  portIn : List Byte
  /-- the model's own: how many port reads were made, the index of the free value (log 7) -/
  portReads : Nat
  /-- the model's own: the requests presented at this and the coming instruction boundaries (R325, log 6) -/
  requests : List (List IntSource)
  /-- the model's own: the events emitted so far, oldest first (log 8) -/
  events : List Event
deriving DecidableEq, Repr

/-- The faults of the model (spec/60_exceptions.md R340, R341): the step has no successor state. None is an
architectural exception. -/
inductive Fault where
  /-- raised by `execUndefined`: the first byte `op`, fetched from `addr`, selects no instruction (R102, R340); safe -/
  | illegalOpcode (op : Byte) (addr : Addr)
  /-- raised by `readMem`, for a fetch or a data read: the map has nothing at `addr` (R62, R341); safe -/
  | unpopulated (addr : Addr)
  /-- raised by `readMem`, for a fetch or a data read: nothing was ever written to `addr` (R41, R62, R341); safe -/
  | unwritten (addr : Addr)
deriving DecidableEq, Repr

/-- The steps the model refuses. -/
inductive Refusal where
  /-- raised by an arm of `exec` for an instruction without a meaning; no arm does; safe -/
  | notModelled (mnemonic : String)
  /-- raised by `writeMem`, for ST: `addr` is not RAM (spec/20_memory.md R63, R341); safe -/
  | storeNotRam (addr : Addr)
deriving DecidableEq, Repr

/-- What a step or a meaning answers. -/
abbrev Out := Host.Outcome State Fault Refusal

/-- The machine right after reset (R40, R360): P0 = 0, ICB = 0, intInhibit = 0 (log 2); memory with nothing listed
(log 3). Every other register holds 0, where the spec gives no value: DESIGN CHOICE, unsafe (log 1). The model's own
fields are empty (logs 6, 7, 8) and the platform is `resetPlatform` (logs 4, 5, 16, 20). -/
def State.reset : State :=
  { a := 0
    scratch := Vector.replicate 64 0
    flags := ⟨false, false, false, false⟩
    icb := false
    is := 0
    p0 := 0
    p := 0
    dc := 0
    dc1 := 0
    intInhibit := false
    mem := []
    platform := resetPlatform
    portIn := []
    portReads := 0
    requests := []
    events := [] }

end Sys2Proof.Machine
end

