-- ==== Sys2Proof/Machine/Flags.lean ====
section
/-! DEFINITION. Every flag computation of the spec (spec/41_arithmetic_logical.md R131 to R135) and the Status
register as one value (spec/10_state.md R25). Each arithmetic function gives the 8-bit result and the four flags. -/

namespace Sys2Proof.Machine

/-- Z of a result: 1 when it is 0x00 (R26, R131). -/
def zeroFlag (res : Byte) : Bool := res == 0

/-- S of a result: 1 when bit 7 is 0, zero counting as positive (R26, R131). -/
def signFlag (res : Byte) : Bool := !res.getLsbD 7

/-- `add8(a, b, cin)`, the adder (R131). C is the carry out of bit 7 and O the exclusive OR of the carries into and
out of bit 7: D9, the spec's from general knowledge (PRESUMED, log 15). -/
def add8 (a b : Byte) (cin : Bool) : Byte × Flags :=
  let t : BitVec 9 := a.setWidth 9 + b.setWidth 9 + (BitVec.ofBool cin).setWidth 9
  let res : Byte := t.setWidth 8
  let c7 := t.getLsbD 8
  let low : Byte := (a.setWidth 7).setWidth 8 + (b.setWidth 7).setWidth 8 + (BitVec.ofBool cin).setWidth 8
  let c6 := low.getLsbD 7
  (res, { o := c7 ^^ c6, z := zeroFlag res, c := c7, s := signFlag res })

/-- `x - y` as the addition `add8(x, ~y, 1)` (R133, D10; PRESUMED, log 15): C = 1 means no borrow. -/
def sub8 (x y : Byte) : Byte × Flags := add8 x (~~~y) true

/-- `v - 1` as the addition `add8(v, 0xFF, 0)` (R133, D10; PRESUMED, log 15). -/
def dec8 (v : Byte) : Byte × Flags := add8 v 0xFF false

/-- The flags of `logic8(v)` (R132): O and C are cleared, Z and S follow the result. -/
def logic8 (v : Byte) : Flags := { o := false, z := zeroFlag v, c := false, s := signFlag v }

/-- One digit of the decimal adjustment: a digit that gave no carry has 0xA added, the carry out of it discarded
(R135). -/
def adjustDigit (carry : Bool) (digit : BitVec 4) : BitVec 4 := if carry then digit else digit + 0xA

/-- `decAdd`, the default of `bcdAdjust` (R135, D11; PRESUMED, log 16): the binary sum gives the flags, then each digit
is adjusted. -/
def decAdd (a b : Byte) : Byte × Flags :=
  let sum := add8 a b false
  let half : BitVec 5 := (a.setWidth 4).setWidth 5 + (b.setWidth 4).setWidth 5
  let ic := half.getLsbD 4
  (adjustDigit sum.2.c (sum.1.extractLsb' 4 4) ++ adjustDigit ic (sum.1.setWidth 4), sum.2)

/-- The flags in the low four bits of a byte: bit 3 O, bit 2 Z, bit 1 C, bit 0 S (R25). -/
def flagsOfByte (v : Byte) : Flags :=
  { o := v.getLsbD 3, z := v.getLsbD 2, c := v.getLsbD 1, s := v.getLsbD 0 }

/-- `bcdAdjust`, the decimal add of AMD and ASD (R135, R7): the function the platform's parameter names. -/
def bcdAdjust (choice : BcdAdjust) (a b : Byte) : Byte × Flags :=
  match choice with
  | .decAdd => decAdd a b
  | .uninterpreted k =>
    ((Config.bcdAdjust k a b).1, flagsOfByte ((Config.bcdAdjust k a b).2.setWidth 8))

/-- W as one value, ICB ‖ O ‖ Z ‖ C ‖ S (R25; ICB in bit 4 is D7, PRESUMED, log 13). -/
def packW (icb : Bool) (f : Flags) : BitVec 5 :=
  BitVec.ofBool icb ++ BitVec.ofBool f.o ++ BitVec.ofBool f.z ++ BitVec.ofBool f.c ++ BitVec.ofBool f.s

/-- ICB in a byte: bit 4 (R25, D7; PRESUMED, log 13). -/
def icbOfByte (v : Byte) : Bool := v.getLsbD 4

end Sys2Proof.Machine
end

