-- ==== Sys2Proof/Machine/Operands.lean ====
section
/-! DEFINITION. The operand forms (spec/30_encoding.md R98 to R100), the named scratchpad registers
(spec/10_state.md R23), the relative branch target (R99) and the branch conditions
(spec/42_branch_jump_call_return.md R181, R182, R188). -/

namespace Sys2Proof.Machine

/-- J (R23). -/
def regJ : ScratchIdx := 9
/-- HU, the upper half of H (R23; D26, DEDUCED by analogy with K and Q, log 11). -/
def regHU : ScratchIdx := 10
/-- HL, the lower half of H (R23; D26, log 11). -/
def regHL : ScratchIdx := 11
/-- KU, the upper half of K (R23). -/
def regKU : ScratchIdx := 12
/-- KL, the lower half of K (R23). -/
def regKL : ScratchIdx := 13
/-- QU, the upper half of Q (R23). -/
def regQU : ScratchIdx := 14
/-- QL, the lower half of Q (R23). -/
def regQL : ScratchIdx := 15

/-- ISU, the upper three bits of IS (R28). -/
def isUpper (is : ScratchIdx) : BitVec 3 := is.extractLsb' 3 3

/-- ISL, the lower three bits of IS (R28). -/
def isLower (is : ScratchIdx) : BitVec 3 := is.setWidth 3

/-- The register `SP(n)` accesses: IS as it stands before the instruction (R98, D5; PRESUMED, log 12). -/
def scrIndex (r : Scr) (is : ScratchIdx) : ScratchIdx :=
  match r with
  | .direct n => BitVec.ofNat 6 n.val
  | .viaIS | .viaISInc | .viaISDec => is

/-- The value IS takes when the instruction completes (R29, R98): only ISL moves, modulo 8 (the wrap of the decrement
is D6, DEDUCED by symmetry, log 12). -/
def scrNextIS (r : Scr) (is : ScratchIdx) : ScratchIdx :=
  match r with
  | .direct _ | .viaIS => is
  | .viaISInc => isUpper is ++ (isLower is + 1)
  | .viaISDec => isUpper is ++ (isLower is - 1)

/-- An 8-bit value sign-extended to an address (R9 `sext_16`, to `ADDR_BITS` bits). -/
def sext16 (v : Byte) : Addr := v.signExtend addrBits

/-- A 16-bit quantity reduced to an address, `v[ADDR_BITS-1:0]` (R100; no reduction when `ADDR_BITS` is 16). -/
def addrOf (v : Word16) : Addr := v.setWidth addrBits

/-- A pair of bytes as an address, upper byte first (R23, R68). -/
def pairAddr (upper lower : Byte) : Addr := addrOf (upper ++ lower)

/-- An address as a 16-bit quantity (spec/44_address_register.md R250: exact when `ADDR_BITS` is 16). -/
def wordOf (v : Addr) : Word16 := v.setWidth 16

/-- Bits 15 to 8 of a 16-bit quantity. -/
def upperByte (v : Word16) : Byte := v.extractLsb' 8 8

/-- Bits 7 to 0 of a 16-bit quantity. -/
def lowerByte (v : Word16) : Byte := v.extractLsb' 0 8

/-- The target of a relative branch whose P0, after both bytes are fetched, is `next` (R99): the displacement counts
from the address of the displacement byte, modulo 2^`ADDR_BITS` (D2, log 10). -/
def branchTarget (next : Addr) (d : Byte) : Addr := next - 1 + sext16 d

/-- The condition of BT (R181): some flag among Z, C, S whose mask bit is 1 is 1. -/
def btTaken (t : BitVec 3) (f : Flags) : Bool :=
  ((BitVec.ofBool f.z ++ BitVec.ofBool f.c ++ BitVec.ofBool f.s) &&& t) != 0

/-- The condition of BF (R182): every flag among O, Z, C, S whose mask bit is 1 is 0. -/
def bfTaken (t : BitVec 4) (f : Flags) : Bool :=
  ((BitVec.ofBool f.o ++ BitVec.ofBool f.z ++ BitVec.ofBool f.c ++ BitVec.ofBool f.s) &&& t) == 0

/-- The condition of BR7 (R188): ISL is not 7. -/
def br7Taken (is : ScratchIdx) : Bool := isLower is != 7

end Sys2Proof.Machine
end

