-- ==== Sys2Proof/Machine/Ops.lean ====
section
/-! DEFINITION. The named operations over registers, memory and ports, and the interrupt entry with its return: what
the meanings of the instructions are made of. -/

namespace Sys2Proof.Machine

-- Scratchpad (spec/10_state.md R22, R24; spec/20_memory.md R64)

/-- r[n]: never faults, all 64 exist (R64). -/
def State.reg (s : State) (n : ScratchIdx) : Byte := s.scratch[n.toNat]'n.isLt

/-- r[n] <- v. -/
def State.setReg (s : State) (n : ScratchIdx) (v : Byte) : State :=
  { s with scratch := s.scratch.set n.toNat v n.isLt }

/-- The register pair (u, l) read as one address, u the upper byte (R23). -/
def State.regPair (s : State) (u l : ScratchIdx) : Addr := pairAddr (s.reg u) (s.reg l)

/-- The register pair (u, l) written with an address, u the upper byte (R23). -/
def State.setRegPair (s : State) (u l : ScratchIdx) (v : Addr) : State :=
  (s.setReg u (upperByte (wordOf v))).setReg l (lowerByte (wordOf v))

/-- The register a scratchpad operand selects (R98). -/
def State.scr (s : State) (r : Scr) : Byte := s.reg (scrIndex r s.is)

/-- IS as a scratchpad operand leaves it (R29, R98). -/
def State.stepIS (s : State) (r : Scr) : State := { s with is := scrNextIS r s.is }

-- The shape of every instruction

/-- P0 after an instruction of `n` bytes has been fetched (R30, R31; modulo 2^`ADDR_BITS`, R32). -/
def State.fetched (s : State) (n : Nat) : State := { s with p0 := s.p0 + BitVec.ofNat addrBits n }

/-- The end of an instruction: `intInhibit` is 1 after an instruction marked privileged and 0 after any other (R38,
R326; the meaning of the mark is D18, PRESUMED by the spec, log 23). -/
def State.ends (s : State) (privileged : Bool) : Out := .next { s with intInhibit := privileged }

/-- A and the flags from an arithmetic result. -/
def State.setResult (s : State) (res : Byte × Flags) : State := { s with a := res.1, flags := res.2 }

/-- A from a logical result, and its flags (R132). -/
def State.setLogic (s : State) (v : Byte) : State := { s with a := v, flags := logic8 v }

-- Main Memory (spec/20_memory.md R62, R63)

/-- `MemRead(addr, 1)` (R62): the byte there; a fault where the map has nothing (log 26) or nothing was written
(log 3). -/
def readMem (s : State) (a : Addr) : Except Fault Byte :=
  match kindAt s.platform a with
  | .unpopulated => .error (.unpopulated a)
  | .rom | .ram =>
    match Memory.read s.mem a.toNat with
    | some v => .ok v
    | none => .error (.unwritten a)

/-- `MemWrite(addr, 1, v)` (R63): stores at a RAM address, is refused anywhere else (D3, log 25). -/
def writeMem (s : State) (a : Addr) (v : Byte) : Except Refusal State :=
  match kindAt s.platform a with
  | .ram => .ok { s with mem := Memory.write s.mem a.toNat v }
  | .rom | .unpopulated => .error (.storeNotRam a)

/-- DC after a data access: the next address, modulo 2^`ADDR_BITS` (R34, R134). -/
def State.bumpDC (s : State) : State := { s with dc := s.dc + 1 }

/-- A one-byte instruction with a memory operand (R134): the byte at DC is read, DC is incremented, then `f` has its
effect; not privileged. -/
def withMemOperand (s : State) (f : State → Byte → State) : Out :=
  match readMem s s.dc with
  | .ok m => (f (s.fetched 1).bumpDC m).ends false
  | .error e => .fault e

-- I/O ports (spec/20_memory.md R66, R67)

/-- What a read of port `p` answers: the environment's next answer, the free value when it has given none (R66,
log 7). -/
def portAnswer (s : State) (p : Byte) : Byte :=
  match s.portIn with
  | v :: _ => v
  | [] => Config.portInput s.portReads p

/-- `PortRead(p)` (R66): the answer is used up and reported as an event. -/
def portRead (s : State) (p : Byte) : State :=
  { s with
    portIn := s.portIn.tail
    portReads := s.portReads + 1
    events := s.events ++ [.portRead p (portAnswer s p)] }

/-- `PortWrite(p, v)` (R67): reported as an event. -/
def portWrite (s : State) (p v : Byte) : State := { s with events := s.events ++ [.portWrite p v] }

-- Transfers of control (spec/42_branch_jump_call_return.md)

/-- A relative branch of two bytes (R99, R181, R182): taken or not; not privileged. -/
def branchIf (taken : Bool) (d : Byte) (s : State) : Out :=
  let n := s.fetched 2
  State.ends { n with p0 := if taken then branchTarget n.p0 d else n.p0 } false

/-- P <- P0 and then P0 <- v: what a call (R198, R199) and an interrupt entry (R328) have in common. -/
def State.saveP0AndGo (s : State) (v : Addr) : State := { s with p := s.p0, p0 := v }

-- Interrupts (spec/60_exceptions.md)

/-- The request set presented at this instruction boundary (R325); none when the schedule has run out (log 6). -/
def presented (s : State) : List IntSource := s.requests.headD []

/-- Acceptance (R327): ICB = 1, `intInhibit` = 0 and some source of IntVector requests; the first such source of
IntVector is the one accepted. -/
def acceptedInterrupt (s : State) : Option (IntSource × Addr) :=
  if s.icb && !s.intInhibit then s.platform.intVector.find? (fun e => (presented s).contains e.1) else none

/-- The boundary is over: the next one has the schedule's next request set (R325, log 6). -/
def State.passBoundary (s : State) : State := { s with requests := s.requests.tail }

/-- TAKING AN INTERRUPT, the only exception entry the machine has (R328): P saves the address of the instruction not
yet executed, P0 goes to the vector, ICB and intInhibit are cleared, the event is reported; nothing else changes. -/
def enterInterrupt (source : IntSource) (vector : Addr) (s : State) : State :=
  { s.saveP0AndGo vector with
    icb := false
    intInhibit := false
    events := s.events ++ [.interrupt source] }

/-- THE RETURN from an interrupt, which is the return from a subroutine (R200, R331): P0 <- P; P keeps its value (D16,
log 21) and ICB is not changed. -/
def State.returnViaP (s : State) : State := { s with p0 := s.p }

end Sys2Proof.Machine
end

