-- ==== Sys2Proof/Machine/AccMove.lean ====
section
/-! DEFINITION. The Accumulator Data Movement Group (spec/43_accumulator_data_movement.md R221 to R235). No
instruction of it alters O, Z, C or S and none is privileged. -/

namespace Sys2Proof.Machine

/-- CLR (R221): Z is not set. -/
def execClr (s : State) : Out := State.ends { s.fetched 1 with a := 0 } false

/-- LR A,KU (R222). -/
def execLrAKU (s : State) : Out := State.ends { s.fetched 1 with a := s.reg regKU } false

/-- LR A,KL (R223). -/
def execLrAKL (s : State) : Out := State.ends { s.fetched 1 with a := s.reg regKL } false

/-- LR KU,A (R224). -/
def execLrKUA (s : State) : Out := ((s.fetched 1).setReg regKU s.a).ends false

/-- LR KL,A (R225). -/
def execLrKLA (s : State) : Out := ((s.fetched 1).setReg regKL s.a).ends false

/-- LR A,QU (R226). -/
def execLrAQU (s : State) : Out := State.ends { s.fetched 1 with a := s.reg regQU } false

/-- LR A,QL (R227). -/
def execLrAQL (s : State) : Out := State.ends { s.fetched 1 with a := s.reg regQL } false

/-- LR QU,A (R228). -/
def execLrQUA (s : State) : Out := ((s.fetched 1).setReg regQU s.a).ends false

/-- LR QL,A (R229). -/
def execLrQLA (s : State) : Out := ((s.fetched 1).setReg regQL s.a).ends false

/-- LR A,r (R230). -/
def execLrAR (r : Scr) (s : State) : Out := (State.stepIS { s.fetched 1 with a := s.scr r } r).ends false

/-- LR r,A (R231): the register IS points to before IS is modified. -/
def execLrRA (r : Scr) (s : State) : Out :=
  (((s.fetched 1).setReg (scrIndex r s.is) s.a).stepIS r).ends false

/-- LI ii (R232). -/
def execLi (ii : Byte) (s : State) : Out := State.ends { s.fetched 2 with a := ii } false

/-- LIS i (R233): the 4-bit immediate zero-extended (R100). -/
def execLis (i : BitVec 4) (s : State) : Out := State.ends { s.fetched 1 with a := i.setWidth 8 } false

/-- LM (R234). -/
def execLm (s : State) : Out := withMemOperand s fun n m => { n with a := m }

/-- ST (R235): refused where DC does not point to RAM (spec/20_memory.md R63). -/
def execSt (s : State) : Out :=
  match writeMem (s.fetched 1) s.dc s.a with
  | .ok n => n.bumpDC.ends false
  | .error e => .refused e

end Sys2Proof.Machine
end

