-- ==== Sys2Proof/Machine/AddrReg.lean ====
section
/-! DEFINITION. The Address Register Group (spec/44_address_register.md R251 to R262). No instruction of it alters O,
Z, C or S and none is privileged. -/

namespace Sys2Proof.Machine

/-- DCI iiii (R251): A is not modified. -/
def execDci (iiii : Word16) (s : State) : Out := State.ends { s.fetched 3 with dc := addrOf iiii } false

/-- XDC (R252). -/
def execXdc (s : State) : Out := State.ends { s.fetched 1 with dc := s.dc1, dc1 := s.dc } false

/-- LR DC,Q (R253). -/
def execLrDCQ (s : State) : Out := State.ends { s.fetched 1 with dc := s.regPair regQU regQL } false

/-- LR Q,DC (R254). -/
def execLrQDC (s : State) : Out := ((s.fetched 1).setRegPair regQU regQL s.dc).ends false

/-- LR DC,H (R255). -/
def execLrDCH (s : State) : Out := State.ends { s.fetched 1 with dc := s.regPair regHU regHL } false

/-- LR H,DC (R256). -/
def execLrHDC (s : State) : Out := ((s.fetched 1).setRegPair regHU regHL s.dc).ends false

/-- LISL bbb (R257). -/
def execLisl (bbb : BitVec 3) (s : State) : Out := State.ends { s.fetched 1 with is := isUpper s.is ++ bbb } false

/-- LISU bbb (R258). -/
def execLisu (bbb : BitVec 3) (s : State) : Out := State.ends { s.fetched 1 with is := bbb ++ isLower s.is } false

/-- LR IS,A (R259): A[7:6] are dropped (D8, log 14). -/
def execLrISA (s : State) : Out := State.ends { s.fetched 1 with is := s.a.setWidth 6 } false

/-- LR A,IS (R260): A[7:6] become 0 (D8, PRESUMED by the spec, log 14). -/
def execLrAIS (s : State) : Out := State.ends { s.fetched 1 with a := s.is.setWidth 8 } false

/-- LR P,K (R261). -/
def execLrPK (s : State) : Out := State.ends { s.fetched 1 with p := s.regPair regKU regKL } false

/-- LR K,P (R262). -/
def execLrKP (s : State) : Out := ((s.fetched 1).setRegPair regKU regKL s.p).ends false

end Sys2Proof.Machine
end

