-- ==== Sys2Proof/Machine/ArithLogic.lean ====
section
/-! DEFINITION. The Arithmetic and Logical Group (spec/41_arithmetic_logical.md R140 to R163). None is privileged. -/

namespace Sys2Proof.Machine

/-- LNK (R140): the Carry flag before the instruction is the carry in. -/
def execLnk (s : State) : Out := ((s.fetched 1).setResult (add8 s.a 0 s.flags.c)).ends false

/-- AI ii (R141). -/
def execAi (ii : Byte) (s : State) : Out := ((s.fetched 2).setResult (add8 s.a ii false)).ends false

/-- ADC (R142): A is a signed number, no flag changes, no memory access. -/
def execAdc (s : State) : Out := State.ends { s.fetched 1 with dc := s.dc + sext16 s.a } false

/-- AM (R143). -/
def execAm (s : State) : Out := withMemOperand s fun n m => n.setResult (add8 n.a m false)

/-- AMD (R144): the decimal add is the platform's (R135). -/
def execAmd (s : State) : Out := withMemOperand s fun n m => n.setResult (bcdAdjust n.platform.bcdAdjust n.a m)

/-- AS r (R145). -/
def execAsR (r : Scr) (s : State) : Out :=
  (((s.fetched 1).setResult (add8 s.a (s.scr r) false)).stepIS r).ends false

/-- ASD r (R146): the decimal add is the platform's (R135). -/
def execAsdR (r : Scr) (s : State) : Out :=
  (((s.fetched 1).setResult (bcdAdjust s.platform.bcdAdjust s.a (s.scr r))).stepIS r).ends false

/-- NI ii (R147). -/
def execNi (ii : Byte) (s : State) : Out := ((s.fetched 2).setLogic (s.a &&& ii)).ends false

/-- NM (R148). -/
def execNm (s : State) : Out := withMemOperand s fun n m => n.setLogic (n.a &&& m)

/-- NS r (R149). -/
def execNsR (r : Scr) (s : State) : Out := (((s.fetched 1).setLogic (s.a &&& s.scr r)).stepIS r).ends false

/-- CI ii (R150): the immediate minus A, only the flags kept. -/
def execCi (ii : Byte) (s : State) : Out := State.ends { s.fetched 2 with flags := (sub8 ii s.a).2 } false

/-- CM (R151): the memory byte minus A, only the flags kept. -/
def execCm (s : State) : Out := withMemOperand s fun n m => { n with flags := (sub8 m n.a).2 }

/-- COM (R152). -/
def execCom (s : State) : Out := ((s.fetched 1).setLogic (~~~s.a)).ends false

/-- DS r (R153): the register IS points to before IS is modified; A is not touched. -/
def execDsR (r : Scr) (s : State) : Out :=
  let res := dec8 (s.scr r)
  let n := (s.fetched 1).setReg (scrIndex r s.is) res.1
  (State.stepIS { n with flags := res.2 } r).ends false

/-- XI ii (R154). -/
def execXi (ii : Byte) (s : State) : Out := ((s.fetched 2).setLogic (s.a ^^^ ii)).ends false

/-- XM (R155). -/
def execXm (s : State) : Out := withMemOperand s fun n m => n.setLogic (n.a ^^^ m)

/-- XS r (R156). -/
def execXsR (r : Scr) (s : State) : Out := (((s.fetched 1).setLogic (s.a ^^^ s.scr r)).stepIS r).ends false

/-- INC (R157). -/
def execInc (s : State) : Out := ((s.fetched 1).setResult (add8 s.a 1 false)).ends false

/-- OI ii (R158). -/
def execOi (ii : Byte) (s : State) : Out := ((s.fetched 2).setLogic (s.a ||| ii)).ends false

/-- OM (R159). -/
def execOm (s : State) : Out := withMemOperand s fun n m => n.setLogic (n.a ||| m)

/-- SL 1 (R160): the bit shifted out is lost. -/
def execSl1 (s : State) : Out := ((s.fetched 1).setLogic (s.a <<< 1)).ends false

/-- SL 4 (R161). -/
def execSl4 (s : State) : Out := ((s.fetched 1).setLogic (s.a <<< 4)).ends false

/-- SR 1 (R162): logical, bit 7 becomes 0. -/
def execSr1 (s : State) : Out := ((s.fetched 1).setLogic (s.a >>> 1)).ends false

/-- SR 4 (R163). -/
def execSr4 (s : State) : Out := ((s.fetched 1).setLogic (s.a >>> 4)).ends false

end Sys2Proof.Machine
end

