-- ==== Sys2Proof/Machine/Branch.lean ====
section
/-! DEFINITION. The Branch, Jump, Call and Return Group (spec/42_branch_jump_call_return.md R181 to R200). No
instruction of it alters O, Z, C or S. JMP, PI, PK and POP are privileged (R326), the others are not. -/

namespace Sys2Proof.Machine

/-- BR aa (R183): always taken. -/
def execBr (aa : Byte) (s : State) : Out := branchIf true aa s

/-- BF t,aa (R182). -/
def execBf (t : BitVec 4) (aa : Byte) (s : State) : Out := branchIf (bfTaken t s.flags) aa s

/-- BM aa (R184): S = 0. -/
def execBm (aa : Byte) (s : State) : Out := branchIf (!s.flags.s) aa s

/-- BNC aa (R185): C = 0. -/
def execBnc (aa : Byte) (s : State) : Out := branchIf (!s.flags.c) aa s

/-- BNO aa (R186): O = 0. -/
def execBno (aa : Byte) (s : State) : Out := branchIf (!s.flags.o) aa s

/-- BNZ aa (R187): Z = 0. -/
def execBnz (aa : Byte) (s : State) : Out := branchIf (!s.flags.z) aa s

/-- BR7 aa (R188): ISL is not 7; no flag is read, IS is not modified. Not privileged and the opcode 8F: D14 (PRESUMED
by the spec, log 19). -/
def execBr7 (aa : Byte) (s : State) : Out := branchIf (br7Taken s.is) aa s

/-- BC aa (R189): C = 1. -/
def execBc (aa : Byte) (s : State) : Out := branchIf s.flags.c aa s

/-- BP aa (R190): S = 1. -/
def execBp (aa : Byte) (s : State) : Out := branchIf s.flags.s aa s

/-- BT t,aa (R181). -/
def execBt (t : BitVec 3) (aa : Byte) (s : State) : Out := branchIf (btTaken t s.flags) aa s

/-- BZ aa (R191): Z = 1. -/
def execBz (aa : Byte) (s : State) : Out := branchIf s.flags.z aa s

/-- JMP aaaa (R196): A is left with the first operand byte (D24, log 24). -/
def execJmp (aaaa : Word16) (s : State) : Out :=
  State.ends { s.fetched 3 with a := upperByte aaaa, p0 := addrOf aaaa } true

/-- LR P0,Q (R197): not privileged. -/
def execLrP0Q (s : State) : Out := State.ends { s.fetched 1 with p0 := s.regPair regQU regQL } false

/-- PI iiii (R198): the return address is P0 after all three bytes (D27, log 24); A is left with the first operand
byte (D24). -/
def execPi (iiii : Word16) (s : State) : Out :=
  (State.saveP0AndGo { s.fetched 3 with a := upperByte iiii } (addrOf iiii)).ends true

/-- PK (R199): A and K are unchanged. -/
def execPk (s : State) : Out := ((s.fetched 1).saveP0AndGo (s.regPair regKU regKL)).ends true

/-- POP (R200): a copy, P is unchanged (D16, log 21). -/
def execPop (s : State) : Out := (s.fetched 1).returnViaP.ends true

end Sys2Proof.Machine
end

