-- ==== Sys2Proof/Machine/CpuControl.lean ====
section
/-! DEFINITION. The CPU Control Group (spec/46_cpu_control.md R301 to R305), and the first bytes that select no
instruction (spec/30_encoding.md R102). -/

namespace Sys2Proof.Machine

/-- DI (R301): not privileged. -/
def execDi (s : State) : Out := State.ends { s.fetched 1 with icb := false } false

/-- EI (R302): privileged. -/
def execEi (s : State) : Out := State.ends { s.fetched 1 with icb := true } true

/-- LR W,J (R303): all five bits of W from J[4:0] (ICB from J[4] is D7, log 13); J[7:5] are ignored; privileged. -/
def execLrWJ (s : State) : Out :=
  State.ends { s.fetched 1 with icb := icbOfByte (s.reg regJ), flags := flagsOfByte (s.reg regJ) } true

/-- LR J,W (R304): the upper three bits of J become 0 (D7, PRESUMED by the spec, log 13). -/
def execLrJW (s : State) : Out :=
  ((s.fetched 1).setReg regJ ((packW s.icb s.flags).setWidth 8)).ends false

/-- NOP (R305): the fetch has already advanced P0. -/
def execNop (s : State) : Out := (s.fetched 1).ends false

/-- A first byte that selects no instruction (R102, R340): a fault of the model with the byte and the address it was
fetched from; nothing is written (D13, log 18). -/
def execUndefined (op : Byte) (s : State) : Out := .fault (.illegalOpcode op s.p0)

end Sys2Proof.Machine
end

