-- ==== Sys2Proof/Machine/InOut.lean ====
section
/-! DEFINITION. The Input/Output Group (spec/45_input_output.md R282 to R286). The long forms perform the access on
every port number 0 to 255: R284 leaves 00 to 03 undefined and lets a model do so (DESIGN CHOICE, log 9). -/

namespace Sys2Proof.Machine

/-- A <- PortRead(p), O and C cleared, Z and S from the byte read (R281; Z and S are D12, PRESUMED by the spec,
log 17). -/
def inputFrom (p : Byte) (s : State) : State := (portRead s p).setLogic (portAnswer s p)

/-- IN pp (R282): not privileged. -/
def execInP (pp : Byte) (s : State) : Out := (inputFrom pp (s.fetched 2)).ends false

/-- INS p (R283): not privileged. -/
def execInsP (p : BitVec 4) (s : State) : Out := (inputFrom (p.setWidth 8) (s.fetched 1)).ends false

/-- OUT pp (R285): no flag changes; privileged. -/
def execOutP (pp : Byte) (s : State) : Out := (portWrite (s.fetched 2) pp s.a).ends true

/-- OUTS p (R286): no flag changes; privileged. -/
def execOutsP (p : BitVec 4) (s : State) : Out := (portWrite (s.fetched 1) (p.setWidth 8) s.a).ends true

end Sys2Proof.Machine
end

