-- ==== Sys2Proof/Machine/Dispatch.lean ====
section
/-! DEFINITION. One arm per constructor of `Instr`: the whole effect of an instruction whose first byte stands at P0. -/

namespace Sys2Proof.Machine

def exec (i : Instr) (s : State) : Host.Outcome State Fault Refusal :=
  match i with
  | .lnk => Sys2Proof.Machine.execLnk s
  | .ai ii => Sys2Proof.Machine.execAi ii s
  | .adc => Sys2Proof.Machine.execAdc s
  | .am => Sys2Proof.Machine.execAm s
  | .amd => Sys2Proof.Machine.execAmd s
  | .asR r => Sys2Proof.Machine.execAsR r s
  | .asdR r => Sys2Proof.Machine.execAsdR r s
  | .ni ii => Sys2Proof.Machine.execNi ii s
  | .nm => Sys2Proof.Machine.execNm s
  | .nsR r => Sys2Proof.Machine.execNsR r s
  | .ci ii => Sys2Proof.Machine.execCi ii s
  | .cm => Sys2Proof.Machine.execCm s
  | .com => Sys2Proof.Machine.execCom s
  | .dsR r => Sys2Proof.Machine.execDsR r s
  | .xi ii => Sys2Proof.Machine.execXi ii s
  | .xm => Sys2Proof.Machine.execXm s
  | .xsR r => Sys2Proof.Machine.execXsR r s
  | .inc => Sys2Proof.Machine.execInc s
  | .oi ii => Sys2Proof.Machine.execOi ii s
  | .om => Sys2Proof.Machine.execOm s
  | .sl1 => Sys2Proof.Machine.execSl1 s
  | .sl4 => Sys2Proof.Machine.execSl4 s
  | .sr1 => Sys2Proof.Machine.execSr1 s
  | .sr4 => Sys2Proof.Machine.execSr4 s
  | .br aa => Sys2Proof.Machine.execBr aa s
  | .bf t aa => Sys2Proof.Machine.execBf t aa s
  | .bm aa => Sys2Proof.Machine.execBm aa s
  | .bnc aa => Sys2Proof.Machine.execBnc aa s
  | .bno aa => Sys2Proof.Machine.execBno aa s
  | .bnz aa => Sys2Proof.Machine.execBnz aa s
  | .br7 aa => Sys2Proof.Machine.execBr7 aa s
  | .bc aa => Sys2Proof.Machine.execBc aa s
  | .bp aa => Sys2Proof.Machine.execBp aa s
  | .bt t aa => Sys2Proof.Machine.execBt t aa s
  | .bz aa => Sys2Proof.Machine.execBz aa s
  | .jmp aaaa => Sys2Proof.Machine.execJmp aaaa s
  | .lrP0Q => Sys2Proof.Machine.execLrP0Q s
  | .pi iiii => Sys2Proof.Machine.execPi iiii s
  | .pk => Sys2Proof.Machine.execPk s
  | .pop => Sys2Proof.Machine.execPop s
  | .clr => Sys2Proof.Machine.execClr s
  | .lrAKU => Sys2Proof.Machine.execLrAKU s
  | .lrAKL => Sys2Proof.Machine.execLrAKL s
  | .lrKUA => Sys2Proof.Machine.execLrKUA s
  | .lrKLA => Sys2Proof.Machine.execLrKLA s
  | .lrAQU => Sys2Proof.Machine.execLrAQU s
  | .lrAQL => Sys2Proof.Machine.execLrAQL s
  | .lrQUA => Sys2Proof.Machine.execLrQUA s
  | .lrQLA => Sys2Proof.Machine.execLrQLA s
  | .lrAR r => Sys2Proof.Machine.execLrAR r s
  | .lrRA r => Sys2Proof.Machine.execLrRA r s
  | .li ii => Sys2Proof.Machine.execLi ii s
  | .lis imm => Sys2Proof.Machine.execLis imm s
  | .lm => Sys2Proof.Machine.execLm s
  | .st => Sys2Proof.Machine.execSt s
  | .dci iiii => Sys2Proof.Machine.execDci iiii s
  | .xdc => Sys2Proof.Machine.execXdc s
  | .lrDCQ => Sys2Proof.Machine.execLrDCQ s
  | .lrQDC => Sys2Proof.Machine.execLrQDC s
  | .lrDCH => Sys2Proof.Machine.execLrDCH s
  | .lrHDC => Sys2Proof.Machine.execLrHDC s
  | .lisl bbb => Sys2Proof.Machine.execLisl bbb s
  | .lisu bbb => Sys2Proof.Machine.execLisu bbb s
  | .lrISA => Sys2Proof.Machine.execLrISA s
  | .lrAIS => Sys2Proof.Machine.execLrAIS s
  | .lrPK => Sys2Proof.Machine.execLrPK s
  | .lrKP => Sys2Proof.Machine.execLrKP s
  | .inP pp => Sys2Proof.Machine.execInP pp s
  | .insP p => Sys2Proof.Machine.execInsP p s
  | .outP pp => Sys2Proof.Machine.execOutP pp s
  | .outsP p => Sys2Proof.Machine.execOutsP p s
  | .di => Sys2Proof.Machine.execDi s
  | .ei => Sys2Proof.Machine.execEi s
  | .lrWJ => Sys2Proof.Machine.execLrWJ s
  | .lrJW => Sys2Proof.Machine.execLrJW s
  | .nop => Sys2Proof.Machine.execNop s
  | .undefined op => Sys2Proof.Machine.execUndefined op s

end Sys2Proof.Machine
end

