-- ==== Sys2Proof/Machine/Fetch.lean ====
section
/-! DEFINITION. Fetching an instruction's bytes through P0 (spec/10_state.md R30, R31), and placing an instruction
where the next fetch reads it. -/

namespace Sys2Proof.Machine

/-- The operand byte at offset `k` of an instruction of `len` bytes at P0; 0 where the instruction has no such byte
(nothing is read there). -/
def fetchOperand (s : State) (len k : Nat) : Except Fault Byte :=
  if k < len then readMem s (s.p0 + BitVec.ofNat addrBits k) else .ok 0

/-- The instruction at P0 (R31): the opcode byte, then zero, one or two operand bytes in address order, the number by
the opcode byte (R91). The bytes are read by `MemRead` like data (R76). -/
def fetchInstr (s : State) : Except Fault Instr :=
  match readMem s s.p0 with
  | .error e => .error e
  | .ok op =>
    match fetchOperand s (instrLength op) 1 with
    | .error e => .error e
    | .ok b1 =>
      match fetchOperand s (instrLength op) 2 with
      | .error e => .error e
      | .ok b2 => .ok (decodeBytes s.platform.lisEncodingAsPrinted op b1 b2)

/-- The map with address `a` made RAM, where it had nothing there. -/
def populate (pl : Platform) (a : Addr) : Platform :=
  match kindAt pl a with
  | .unpopulated => { pl with memMap := ⟨.ram, a.toNat, 1⟩ :: pl.memMap }
  | .rom | .ram => pl

/-- The state with byte `v` loaded at address `a` from outside the machine. -/
def loadByte (s : State) (a : Addr) (v : Byte) : State :=
  { s with mem := Memory.write s.mem a.toNat v, platform := populate s.platform a }

/-- The state with the three bytes of `w` loaded at P0, the encoding switch at the value `decodeTableWord` reads by,
and no interrupt requested at this boundary. -/
def loadAtP0 (s : State) (nbits w : Nat) : State :=
  let n := loadByte (loadByte (loadByte s s.p0 (tableByte nbits w 0)) (s.p0 + 1) (tableByte nbits w 1))
    (s.p0 + 2) (tableByte nbits w 2)
  { n with
    platform := { n.platform with lisEncodingAsPrinted := lisEncodingDefault }
    requests := match s.requests with
      | [] => []
      | _ :: later => [] :: later }

end Sys2Proof.Machine
end

