-- ==== Sys2Proof/Machine/Step.lean ====
section
/-! DEFINITION. One step of the machine: at an instruction boundary either an interrupt is accepted, in place of the
fetch (spec/60_exceptions.md R327, R328), or the instruction at P0 is fetched and executed whole (R330). -/

namespace Sys2Proof.Machine

/-- One step. -/
def step (s : State) : Host.Outcome State Fault Refusal :=
  match acceptedInterrupt s with
  | some (source, vector) => .next (enterInterrupt source vector s.passBoundary)
  | none =>
    match fetchInstr s with
    | .error e => .fault e
    | .ok i => exec i s.passBoundary

/-- The state with the instruction whose bytes, first byte least significant, are `w` (the bits from `nbits` on zero)
loaded where the next step fetches; the load stands for the program's load from outside the machine (log 30). -/
def State.withFetchWord (s : State) (nbits w : Nat) : State := loadAtP0 s nbits w

end Sys2Proof.Machine
end

