-- ==== Sys2Proof/Machine/Timing.lean ====
section
/-! DEFINITION. The execution times of spec/70_reset_and_hazards.md R370 to R372, as functions of the instruction and
the state it starts in. Timing is informative (R373): no state and no result depends on anything here (log 29). -/

namespace Sys2Proof.Machine

/-- A machine cycle (R370). -/
inductive Cycle where
  | long
  | short
deriving DecidableEq, Repr

/-- Periods of the 2 MHz clock in a cycle (R370). -/
def Cycle.phi : Cycle → Nat
  | .long => 6
  | .short => 4

/-- Microseconds of a cycle at the 4 MHz time base (R370). -/
def Cycle.micros : Cycle → Nat
  | .long => 3
  | .short => 2

/-- Whether a relative branch is taken in a state (R181 to R191); false for an instruction that is none. -/
def relativeTaken (i : Instr) (f : Flags) (is : ScratchIdx) : Bool :=
  match i with
  | .br _ => true
  | .bf t _ => bfTaken t f
  | .bm _ => !f.s
  | .bnc _ => !f.c
  | .bno _ => !f.o
  | .bnz _ => !f.z
  | .br7 _ => br7Taken is
  | .bc _ => f.c
  | .bp _ => f.s
  | .bt t _ => btTaken t f
  | .bz _ => f.z
  | _ => false

/-- The time column of R371, in microseconds at the 4 MHz time base; none for a first byte that selects no instruction.
BR7's figure is D14, by analogy (log 19). -/
def micros (i : Instr) (s : State) : Option Nat :=
  let branch := some (if relativeTaken i s.flags s.is then 7 else 6)
  let port := fun (p : BitVec 4) => some (if p.toNat < 2 then 4 else 8)
  match i with
  | .lnk | .asR _ | .nsR _ | .com | .xsR _ | .inc | .sl1 | .sl4 | .sr1 | .sr4 => some 2
  | .ai _ | .adc | .am | .amd | .ni _ | .nm | .ci _ | .cm | .xi _ | .xm | .oi _ | .om => some 5
  | .asdR _ => some 4
  | .dsR _ => some 3
  | .br _ | .bf _ _ | .bm _ | .bnc _ | .bno _ | .bnz _ | .br7 _ | .bc _ | .bp _ | .bt _ _ | .bz _ => branch
  | .jmp _ => some 11
  | .lrP0Q | .pk => some 8
  | .pi _ => some 13
  | .pop => some 4
  | .clr | .lrAKU | .lrAKL | .lrKUA | .lrKLA | .lrAQU | .lrAQL | .lrQUA | .lrQLA | .lrAR _ | .lrRA _ | .lis _ => some 2
  | .li _ | .lm | .st => some 5
  | .dci _ => some 12
  | .xdc => some 4
  | .lrDCQ | .lrQDC | .lrDCH | .lrHDC | .lrPK | .lrKP => some 8
  | .lisl _ | .lisu _ | .lrISA | .lrAIS => some 2
  | .inP _ | .outP _ => some 8
  | .insP p | .outsP p => port p
  | .di | .ei | .lrJW | .nop => some 2
  | .lrWJ => some 4
  | .undefined _ => none

/-- The cycle column of R371 as printed, eight cells truncated in the source (R372); none where there is no row (BR7)
or no instruction. -/
def cyclesPrinted (i : Instr) (s : State) : Option (List Cycle) :=
  let branch := some (if relativeTaken i s.flags s.is then [.short, .long, .short] else [.short, .short, .short])
  let port := fun (p : BitVec 4) => some (if p.toNat < 2 then [.short, .short] else [.long, .long, .short])
  match i with
  | .lnk | .asR _ | .asdR _ | .nsR _ | .com | .xsR _ | .inc | .sl1 | .sl4 | .sr1 | .sr4 => some [.short]
  | .ai _ | .adc | .am | .amd | .ni _ | .nm | .ci _ | .cm | .xi _ | .xm | .oi _ | .om => some [.long, .short]
  | .dsR _ => some [.long]
  | .br _ => some [.short, .long]
  | .bf _ _ | .bm _ | .bnc _ | .bno _ | .bnz _ | .bc _ | .bp _ | .bt _ _ | .bz _ => branch
  | .br7 _ => none
  | .jmp _ | .pi _ => some [.short, .long]
  | .lrP0Q | .pk => some [.long, .long]
  | .pop => some [.short, .short]
  | .clr | .lrAKU | .lrAKL | .lrKUA | .lrKLA | .lrAQU | .lrAQL | .lrQUA | .lrQLA | .lrAR _ | .lrRA _ | .lis _ => some [.short]
  | .li _ | .lm | .st => some [.long, .short]
  | .dci _ => some [.long, .short, .long, .short]
  | .xdc => some [.short, .short]
  | .lrDCQ | .lrQDC | .lrDCH | .lrHDC | .lrPK | .lrKP => some [.long, .long, .short]
  | .lisl _ | .lisu _ | .lrISA | .lrAIS => some [.short]
  | .inP _ | .outP _ => some [.long, .long, .short]
  | .insP p | .outsP p => port p
  | .di | .ei | .lrJW | .lrWJ | .nop => some [.short]
  | .undefined _ => none

/-- The instructions whose cycle cell is truncated in the source (R372). -/
def cycleCellTruncated : Instr → Bool
  | .asdR _ | .br _ | .jmp _ | .lrP0Q | .pi _ | .pk | .dci _ | .lrWJ => true
  | _ => false

/-- Periods of the 2 MHz clock an instruction takes (R371: twice the microseconds). -/
def phiPeriods (i : Instr) (s : State) : Option Nat := (micros i s).map (2 * ·)

/-- The time of an instruction at another time base: the tabulated time times 4 MHz over the time base (R370; the
printed ratio is inverted, spec/90_conflicts.md C18). -/
def microsAt (timeBaseMHz : Rat) (i : Instr) (s : State) : Option Rat :=
  (micros i s).map fun t => (t : Rat) * 4 / timeBaseMHz

end Sys2Proof.Machine
end

