-- ==== Sys2Proof/Safety.lean ====
section
/-! DEFINITION. The terms the claims are stated in: the invariant of a sound state, the tables of the spec that classify
the instructions (lengths, privileged marks, flag rows), and the arithmetic relations of the flag rules, each written
from the spec's words and not from the meanings. -/

namespace Sys2Proof

/-- The length in bytes of an instruction (spec/30_encoding.md R91; an undefined first byte counts as one). -/
def Instr.length : Instr → Nat
  | .ai _ | .ni _ | .ci _ | .xi _ | .oi _ | .li _ | .inP _ | .outP _ => 2
  | .br _ | .bf _ _ | .bm _ | .bnc _ | .bno _ | .bnz _ | .br7 _ | .bc _ | .bp _ | .bt _ _ | .bz _ => 2
  | .jmp _ | .pi _ | .dci _ => 3
  | .lnk | .adc | .am | .amd | .asR _ | .asdR _ | .nm | .nsR _ | .cm | .com | .dsR _ | .xm | .xsR _ | .inc | .om
  | .sl1 | .sl4 | .sr1 | .sr4 | .lrP0Q | .pk | .pop
  | .clr | .lrAKU | .lrAKL | .lrKUA | .lrKLA | .lrAQU | .lrAQL | .lrQUA | .lrQLA | .lrAR _ | .lrRA _
  | .lis _ | .lm | .st | .xdc | .lrDCQ | .lrQDC | .lrDCH | .lrHDC | .lisl _ | .lisu _ | .lrISA | .lrAIS
  | .lrPK | .lrKP | .insP _ | .outsP _ | .di | .ei | .lrWJ | .lrJW | .nop | .undefined _ => 1

/-- The instructions marked `p` in the INT column (spec/60_exceptions.md R326). -/
def Instr.privileged : Instr → Bool
  | .jmp _ | .pi _ | .pk | .pop | .outP _ | .outsP _ | .ei | .lrWJ => true
  | _ => false

/-- The sixteen instructions of the Branch, Jump, Call and Return Group (spec/42_branch_jump_call_return.md R202). -/
def Instr.transfersControl : Instr → Bool
  | .br _ | .bf _ _ | .bm _ | .bnc _ | .bno _ | .bnz _ | .br7 _ | .bc _ | .bp _ | .bt _ _ | .bz _ => true
  | .jmp _ | .lrP0Q | .pi _ | .pk | .pop => true
  | _ => false

/-- The instructions that read the byte at DC (spec/20_memory.md R70). -/
def Instr.readsMemory : Instr → Bool
  | .lm | .am | .amd | .nm | .om | .xm | .cm => true
  | _ => false

/-- The rows of the table of spec/10_state.md R26. -/
inductive FlagRow where
  /-- O, Z, C, S all modified by the result -/
  | arithmetic
  /-- O and C cleared, Z and S modified by the result (the IN and INS rows by D12) -/
  | logical
  /-- O and C cleared, Z modified, S set -/
  | rightShift
  /-- all four loaded from J -/
  | loaded
  /-- all four left unaltered -/
  | unaltered
deriving DecidableEq, Repr

/-- The instructions whose sum is decimally adjusted: AMD and ASD (spec/41_arithmetic_logical.md R135). -/
def Instr.decimal : Instr → Bool
  | .amd | .asdR _ => true
  | _ => false

/-- The row of R26 an instruction stands in. -/
def Instr.flagRow : Instr → FlagRow
  | .ai _ | .am | .amd | .asR _ | .asdR _ | .ci _ | .cm | .dsR _ | .inc | .lnk => .arithmetic
  | .com | .ni _ | .nm | .nsR _ | .oi _ | .om | .xi _ | .xm | .xsR _ | .sl1 | .sl4 | .inP _ | .insP _ => .logical
  | .sr1 | .sr4 => .rightShift
  | .lrWJ => .loaded
  | _ => .unaltered

end Sys2Proof

namespace Sys2Proof.Machine

/-- A sound state: Main Memory in canonical form, and no byte listed where the map has nothing. -/
def State.Sound (s : State) : Prop :=
  Memory.wf s.mem = true ∧ ∀ c ∈ s.mem, kindAt s.platform (BitVec.ofNat addrBits c.1) ≠ .unpopulated

/-- What R131 says of an addition `a + b + cin`, in numbers: the sum modulo 256, C the carry out of bit 7 (unsigned
overflow), O the signed overflow, Z a zero result, S a result below 128. -/
def AddsTo (a b : Byte) (cin : Bool) (res : Byte) (f : Flags) : Prop :=
  res.toNat = (a.toNat + b.toNat + cin.toNat) % 256 ∧
  (f.c = true ↔ 256 ≤ a.toNat + b.toNat + cin.toNat) ∧
  (f.o = true ↔ a.toInt + b.toInt + cin.toNat < -128 ∨ 127 < a.toInt + b.toInt + cin.toNat) ∧
  (f.z = true ↔ res = 0) ∧ (f.s = true ↔ res.toNat < 128)

/-- What R133 says of the flags of a subtraction `x - y`, in numbers: C is "no borrow", Z equality, S bit 7 of the
difference being 0, O the signed overflow. -/
def SubtractionFlags (x y : Byte) (f : Flags) : Prop :=
  (f.c = true ↔ y.toNat ≤ x.toNat) ∧ (f.z = true ↔ x = y) ∧
  (f.s = true ↔ (x.toNat + 256 - y.toNat) % 256 < 128) ∧
  (f.o = true ↔ x.toInt - y.toInt < -128 ∨ 127 < x.toInt - y.toInt)

/-- What R132 says of the flags of a logical result, in numbers. -/
def LogicalFlags (res : Byte) (f : Flags) : Prop :=
  f.o = false ∧ f.c = false ∧ (f.z = true ↔ res.toNat = 0) ∧ (f.s = true ↔ res.toNat < 128)

/-- The addends and the carry in of the one binary addition an instruction of the arithmetic row of R26 does: additions
(R131), compares and DS as additions of a complement (R133, D10, log 15), AMD and ASD before the adjustment (R135). None
for the other instructions, and for a memory operand without a value. -/
def addends (i : Instr) (s : State) : Option (Byte × Byte × Bool) :=
  match i with
  | .lnk => some (s.a, 0, s.flags.c)
  | .ai ii => some (s.a, ii, false)
  | .inc => some (s.a, 1, false)
  | .asR r | .asdR r => some (s.a, s.reg (scrIndex r s.is), false)
  | .am | .amd => (readMem s s.dc).toOption.map fun m => (s.a, m, false)
  | .ci ii => some (ii, ~~~s.a, true)
  | .cm => (readMem s s.dc).toOption.map fun m => (m, ~~~s.a, true)
  | .dsR r => some (s.reg (scrIndex r s.is), 0xFF, false)
  | _ => none

/-- What R135 says of its default `decAdd`, in numbers: the flags are those of the binary sum, and each digit of it that
gave no carry has 10 added modulo 16. -/
def DecimallyAdds (a b : Byte) (res : Byte) (f : Flags) : Prop :=
  ∃ sum : Byte, AddsTo a b false sum f ∧
    res.toNat % 16 = (if 16 ≤ a.toNat % 16 + b.toNat % 16 then sum.toNat % 16 else (sum.toNat + 10) % 16) ∧
    res.toNat / 16 = (if 256 ≤ a.toNat + b.toNat then sum.toNat / 16 else (sum.toNat / 16 + 10) % 16)

/-- The address with upper byte `u` and lower byte `l`, in numbers (spec/10_state.md R23). -/
def pairValue (u l : Byte) : Addr := BitVec.ofNat addrBits (256 * u.toNat + l.toNat)

/-- The target of a relative branch whose opcode byte stands at `a0`, in numbers (spec/30_encoding.md R99). -/
def relativeTarget (a0 : Addr) (d : Byte) : Addr := BitVec.ofInt addrBits (a0.toNat + 1 + d.toInt)

/-- P0 after a relative branch whose opcode byte stands at `a0` (R99). -/
def branchOutcome (a0 : Addr) (d : Byte) (taken : Prop) (p0' : Addr) : Prop :=
  (taken → p0' = relativeTarget a0 d) ∧ (¬ taken → p0' = BitVec.ofNat addrBits (a0.toNat + 2))

/-- P0 has moved past an instruction of `n` bytes (R30); nothing is said where that passes the end of the address space
(D2, log 10). -/
def PastBytes (n : Nat) (s t : State) : Prop := s.p0.toNat + n < 2 ^ addrBits → t.p0.toNat = s.p0.toNat + n

/-- The state with another DC1. -/
def State.withDC1 (s : State) (v : Addr) : State := { s with dc1 := v }

/-- The outcome with its next state, where it has one, changed by `f`. -/
def mapNext (f : State → State) : Out → Out
  | .next t => .next (f t)
  | .fault e => .fault e
  | .refused e => .refused e

/-- The outcome is a next state. -/
def Completes (o : Out) : Prop := ∃ t, o = .next t

end Sys2Proof.Machine
end

