-- ==== Sys2Proof/Certificates/Slice0/Obligations.lean ====
section
/-! DEFINITION. The statements for the provers. OBLIGATIONS.json lists them with their basis. A docstring says where a
clause rests on the spec's own decision (D<n> of spec/92_eei_decisions.md) and which log entry holds it.
In every statement about a next state `t`, the equation `t = { s with … }` is the frame: it names every field the
instruction may change, so that every other field, all of Main Memory among them, is as before; the program counter has
its own statements. `intInhibit` has its own statement too (`PrivilegedMarkHoldsOffInterrupts`). -/

open Sys2Proof Sys2Proof.Machine

-- Encoding

/-- Decode and encode agree for every well-formed instruction under either value of the LISL/LISU switch, whatever
bytes follow. -/
def Obligations.DecodeOfEncodeIsTheInstruction : Prop :=
  ∀ (sw : Bool) (i : Instr) (rest : List Byte),
    i.wellFormed = true → decode sw (encode sw i ++ rest) = .ok (i, rest)

/-- The other direction: whatever three bytes stand in memory, the term the decoder gives is well formed, its encoding
is the bytes it was read from, and their number is the model's length of the first byte. The length is R91's but for two
choices: the 2 of 8F is D14 (PRESUMED by the spec, log 19), and the 1 of the ten undefined first bytes is the MODEL'S
CHOICE (log 18), which says only that no byte after them is read, since R91 gives 2D, 2E, 2F no length and R102 gives none
of the ten a meaning. Which of two names of the same words is the well-formed term is the model's choice too (log 28), and
the switch is D15 (log 20). -/
def Obligations.EncodeOfDecodeIsTheBytes : Prop :=
  ∀ (sw : Bool) (op b1 b2 : Byte),
    (decodeBytes sw op b1 b2).wellFormed = true ∧
    encode sw (decodeBytes sw op b1 b2) = [op, b1, b2].take (instrLength op) ∧
    (decodeBytes sw op b1 b2).length = instrLength op

/-- A few words written out from the formats R92 to R97 decode to the instructions they stand for. Three of them rest on
marked decisions: 8F as BR7 (D14, PRESUMED by the spec, log 19), 6A as LISU with the switch as printed (D15, log 20), and
the upper byte first in 29 01 80 (D4, log 11). -/
def Obligations.WrittenOutWordsDecode : Prop :=
  decode true [0x24, 0x34] = .ok (.ai 0x34, []) ∧
  decode true [0x29, 0x01, 0x80] = .ok (.jmp 0x0180, []) ∧
  decode true [0xC3] = .ok (.asR (.direct 3), []) ∧
  decode true [0x5D] = .ok (.lrRA .viaISInc, []) ∧
  decode true [0x8F, 0xFD] = .ok (.br7 0xFD, []) ∧
  decode true [0x6A] = .ok (.lisu 2, []) ∧
  decode true [0xBF] = .ok (.outsP 15, []) ∧
  decode true [0x1D] = .ok (.lrWJ, [])

/-- Exactly the ten first bytes of R102 select no instruction (that 8F is none of them is D14, PRESUMED by the spec,
log 19; that they decode to a term of their own is the model's form, log 18). -/
def Obligations.UndefinedFirstBytesAreTheTen : Prop :=
  ∀ (sw : Bool) (op b1 b2 : Byte),
    op ∈ undefinedOpcodes ↔ decodeBytes sw op b1 b2 = .undefined op

/-- The nine alternative mnemonics of R106 have the bytes and the whole effect of their base instruction. -/
def Obligations.NamedMnemonicsAreTheirBaseInstruction : Prop :=
  ∀ (sw : Bool) (d : Byte) (s : State),
    (encode sw (.bp d) = encode sw (.bt 1 d) ∧ exec (.bp d) s = exec (.bt 1 d) s) ∧
    (encode sw (.bc d) = encode sw (.bt 2 d) ∧ exec (.bc d) s = exec (.bt 2 d) s) ∧
    (encode sw (.bz d) = encode sw (.bt 4 d) ∧ exec (.bz d) s = exec (.bt 4 d) s) ∧
    (encode sw (.br d) = encode sw (.bf 0 d) ∧ exec (.br d) s = exec (.bf 0 d) s) ∧
    (encode sw (.bm d) = encode sw (.bf 1 d) ∧ exec (.bm d) s = exec (.bf 1 d) s) ∧
    (encode sw (.bnc d) = encode sw (.bf 2 d) ∧ exec (.bnc d) s = exec (.bf 2 d) s) ∧
    (encode sw (.bnz d) = encode sw (.bf 4 d) ∧ exec (.bnz d) s = exec (.bf 4 d) s) ∧
    (encode sw (.bno d) = encode sw (.bf 8 d) ∧ exec (.bno d) s = exec (.bf 8 d) s) ∧
    (encode sw .clr = encode sw (.lis 0) ∧ exec .clr s = exec (.lis 0) s)

-- The step

/-- Right after reset: P0 = 0, ICB = 0, intInhibit = 0 (R40, R360, from D19), and the state is sound. The zeros of the
other registers (log 1) are not part of this statement. -/
def Obligations.ResetStateIsSound : Prop :=
  State.reset.p0 = 0 ∧ State.reset.icb = false ∧ State.reset.intInhibit = false ∧ State.reset.Sound

/-- Where no interrupt is accepted and the bytes at P0 decode to `i`, the step is `exec i` at that state with this
boundary's request set used up (log 6). Only the bytes the first byte calls for need be readable. -/
def Obligations.StepRunsTheDecodedInstruction : Prop :=
  ∀ (s : State) (op b1 b2 : Byte) (i : Instr) (rest : List Byte),
    acceptedInterrupt s = none →
    readMem s s.p0 = .ok op →
    (2 ≤ instrLength op → readMem s (s.p0 + 1) = .ok b1) →
    (3 ≤ instrLength op → readMem s (s.p0 + 2) = .ok b2) →
    decode s.platform.lisEncodingAsPrinted [op, b1, b2] = .ok (i, rest) →
    step s = exec i s.passBoundary

/-- A fetch from an address where the map has nothing, or where nothing was ever written, faults with that address, for
each of the one, two or three bytes the first byte calls for. The choice of a fault over a draw is R41's and R62's
preference (logs 3 and 26). -/
def Obligations.FetchOfAbsentByteFaults : Prop :=
  ∀ (s : State) (op b1 : Byte) (e : Fault), acceptedInterrupt s = none →
    (readMem s s.p0 = .error e → step s = .fault e) ∧
    (readMem s s.p0 = .ok op → 2 ≤ instrLength op → readMem s (s.p0 + 1) = .error e → step s = .fault e) ∧
    (readMem s s.p0 = .ok op → 3 ≤ instrLength op → readMem s (s.p0 + 1) = .ok b1 →
      readMem s (s.p0 + 2) = .error e → step s = .fault e)

/-- What a read of one byte answers: ROM and RAM addresses that hold a byte give it (R62), unpopulated and never written
addresses fault. R62 and R41 leave a fault or a draw to the modeller: the fault is the MODEL'S CHOICE (DESIGN CHOICE, D3 and
D19, logs 26 and 3). The memory is any list; the byte at an address is the one listed for it first. -/
def Obligations.ReadAnswersByTheMap : Prop :=
  ∀ (s : State) (a : Addr),
    (kindAt s.platform a = .unpopulated → readMem s a = .error (.unpopulated a)) ∧
    (kindAt s.platform a ≠ .unpopulated → (∀ c ∈ s.mem, c.1 ≠ a.toNat) → readMem s a = .error (.unwritten a)) ∧
    (kindAt s.platform a ≠ .unpopulated → ∀ (before after : Memory) (v : Byte),
      s.mem = before ++ (a.toNat, v) :: after → (∀ c ∈ before, c.1 ≠ a.toNat) → readMem s a = .ok v)

/-- An undefined first byte stops the machine with the byte and the address it was fetched from (R340, D13, log 18). -/
def Obligations.UndefinedFirstByteStopsTheStep : Prop :=
  ∀ (s : State) (op : Byte), acceptedInterrupt s = none → op ∈ undefinedOpcodes → readMem s s.p0 = .ok op →
    step s = .fault (.illegalOpcode op s.p0)

/-- `exec` at an undefined first byte is that fault whatever byte the term carries (log 18). -/
def Obligations.UndefinedMeaningIsTheFault : Prop :=
  ∀ (s : State) (op : Byte), exec (.undefined op) s = .fault (.illegalOpcode op s.p0)

-- Interrupts

/-- When an interrupt is accepted, and which (R327, from D17, D18 and D28; logs 22 and 23): ICB is 1, intInhibit is 0,
and the source is the first of IntVector that is in the request set presented at this boundary. -/
def Obligations.InterruptAcceptance : Prop :=
  ∀ (s : State) (source : IntSource) (vector : Addr),
    acceptedInterrupt s = some (source, vector) ↔
      s.icb = true ∧ s.intInhibit = false ∧ source ∈ presented s ∧
      ∃ higher lower, s.platform.intVector = higher ++ (source, vector) :: lower ∧
        ∀ e ∈ higher, e.1 ∉ presented s

/-- Taking an interrupt (R328, from D17; log 22): P saves P0, P0 goes to the vector, ICB and intInhibit are cleared, the
event is reported, the boundary's request set is used up, nothing else changes. -/
def Obligations.InterruptEntry : Prop :=
  ∀ (s : State) (source : IntSource) (vector : Addr),
    acceptedInterrupt s = some (source, vector) →
    ∃ t, step s = .next t ∧
      t = { s with p := s.p0, p0 := vector, icb := false, intInhibit := false,
                   events := s.events ++ [.interrupt source], requests := s.requests.tail }

/-- After a privileged instruction, and after no other, intInhibit is 1, so that the boundary after it accepts no
interrupt whatever is requested (R326, from D18; log 23). -/
def Obligations.PrivilegedMarkHoldsOffInterrupts : Prop :=
  ∀ (i : Instr) (s t : State), exec i s = .next t →
    t.intInhibit = i.privileged ∧ (i.privileged = true → acceptedInterrupt t = none)

/-- `EI; POP` ends an interrupt routine: no interrupt is accepted between the two nor right after POP, and the
interrupted program goes on at the address in P with interrupts enabled (R331, which the spec derives from D16, D17 and
D18; logs 21, 22, 23). -/
def Obligations.EnableThenReturn : Prop :=
  ∀ s : State, ∃ t u, exec .ei s = .next t ∧ acceptedInterrupt t = none ∧
    exec .pop t = .next u ∧ acceptedInterrupt u = none ∧ u.p0 = s.p ∧ u.icb = true ∧ u.p = s.p

/-- ICB changes only by an accepted interrupt or by DI, EI or LR W,J (R27). -/
def Obligations.IcbChangesOnlyByItsWriters : Prop :=
  ∀ s t : State, step s = .next t → t.icb ≠ s.icb →
    acceptedInterrupt s ≠ none ∨ ∃ i, fetchInstr s = .ok i ∧ (i = .di ∨ i = .ei ∨ i = .lrWJ)

-- Whole-machine rules

/-- Every step keeps a sound state sound: Main Memory stays in canonical form and no byte is listed at an unpopulated
address. -/
def Obligations.StepKeepsSound : Prop :=
  ∀ s t : State, s.Sound → step s = .next t → t.Sound

/-- Over any run from any state, the platform parameters are fixed (R39) and no byte outside RAM changes (R62: at a ROM
address, the fixed program byte). -/
def Obligations.RunKeepsPlatformAndRom : Prop :=
  ∀ (k : Nat) (s t : State), Sys2Proof.core.run k s = .next t →
    t.platform = s.platform ∧ ∀ a : Addr, kindAt s.platform a ≠ .ram → readMem t a = readMem s a

/-- A step of the run reports at most one event, after those already reported, and reports an interrupt exactly when it
accepts one (R66, R67, R325: reported in program order; the log is the model's own, log 8). -/
def Obligations.StepReportsAtMostOneEvent : Prop :=
  ∀ s t : State, step s = .next t →
    ∃ new, t.events = s.events ++ new ∧ new.length ≤ 1 ∧
      ∀ source, .interrupt source ∈ new ↔ ∃ vector, acceptedInterrupt s = some (source, vector)

/-- Memory is changed by ST alone: after any other instruction every address reads as before. -/
def Obligations.MemoryChangesOnlyByStore : Prop :=
  ∀ (i : Instr) (s t : State), i ≠ .st → exec i s = .next t → ∀ a : Addr, readMem t a = readMem s a

/-- Which instructions may change P, DC, DC1 and IS (R33, R34, R35, R28). -/
def Obligations.AddressRegistersChangeOnlyByTheirWriters : Prop :=
  ∀ (i : Instr) (s t : State), exec i s = .next t →
    (t.p ≠ s.p → i = .pk ∨ i = .lrPK ∨ ∃ v, i = .pi v) ∧
    (t.dc1 ≠ s.dc1 → i = .xdc) ∧
    (t.dc ≠ s.dc → i.readsMemory = true ∨ i = .st ∨ i = .adc ∨ i = .xdc ∨ i = .lrDCQ ∨ i = .lrDCH ∨ ∃ v, i = .dci v) ∧
    (t.is ≠ s.is → i = .lrISA ∨ (∃ b, i = .lisl b) ∨ (∃ b, i = .lisu b) ∨
      ∃ r : Scr, (r = .viaISInc ∨ r = .viaISDec) ∧
        (i = .asR r ∨ i = .asdR r ∨ i = .nsR r ∨ i = .xsR r ∨ i = .dsR r ∨ i = .lrAR r ∨ i = .lrRA r))

/-- Which instructions may change A (R21; JMP and PI by D24, log 24) and which scratchpad registers each instruction may
change (R24). Through IS the register changed is the one IS points to before IS is modified (D5, PRESUMED by the spec,
log 12), and LR H,DC changes 10 and 11 by D26 (log 11). -/
def Obligations.AccumulatorAndScratchpadChangeOnlyByTheirWriters : Prop :=
  ∀ (i : Instr) (s t : State), exec i s = .next t →
    (t.a ≠ s.a → i.flagRow = .arithmetic ∨ i.flagRow = .logical ∨ i.flagRow = .rightShift ∨ i.readsMemory = true ∨
      (∃ v, i = .jmp v) ∨ (∃ v, i = .pi v) ∨ i = .clr ∨ i = .lrAKU ∨ i = .lrAKL ∨ i = .lrAQU ∨ i = .lrAQL ∨
      (∃ r, i = .lrAR r) ∨ (∃ v, i = .li v) ∨ (∃ v, i = .lis v) ∨ i = .lrAIS) ∧
    (∀ v r, i = .ci v ∨ i = .cm ∨ i = .dsR r ∨ i = .adc → t.a = s.a) ∧
    ∀ n : ScratchIdx, t.reg n ≠ s.reg n →
      (n = s.is ∧ ∃ r : Scr, (∀ m, r ≠ .direct m) ∧ (i = .lrRA r ∨ i = .dsR r)) ∨
      (∃ m : Fin 12, n.toNat = m.val ∧ (i = .lrRA (.direct m) ∨ i = .dsR (.direct m))) ∨
      (n = 12 ∧ (i = .lrKUA ∨ i = .lrKP)) ∨ (n = 13 ∧ (i = .lrKLA ∨ i = .lrKP)) ∨
      (n = 14 ∧ (i = .lrQUA ∨ i = .lrQDC)) ∨ (n = 15 ∧ (i = .lrQLA ∨ i = .lrQDC)) ∨
      ((n = 10 ∨ n = 11) ∧ i = .lrHDC) ∨ (n = 9 ∧ i = .lrJW)

/-- The flags after every instruction, by its row of the table of R26. Unaltered rows: as before. Logical rows (IN and
INS among them by D12, log 17): O and C cleared, Z exactly when A is 0, S exactly when A is below 128. Right shifts: the
same, and S is 1. LR W,J: O, Z, C, S from J[3:0]. Arithmetic row: all four are those of the one binary addition the
instruction does (C and O by D9, the compares and DS as additions of a complement by D10, log 15); for AMD and ASD this
holds where the parameter `bcdAdjust` is R135's default `decAdd` (D11, log 16), and whatever the parameter is the flags
are its own. After every row that computes the flags from a result Z = 1 implies S = 1. -/
def Obligations.FlagsFollowTheTable : Prop :=
  ∀ (i : Instr) (s t : State), exec i s = .next t →
    (i.flagRow = .unaltered → t.flags = s.flags) ∧
    (i.flagRow = .logical → LogicalFlags t.a t.flags) ∧
    (i.flagRow = .rightShift → LogicalFlags t.a t.flags ∧ t.flags.s = true) ∧
    (i.flagRow = .loaded →
      t.flags.o = (s.reg 9).getLsbD 3 ∧ t.flags.z = (s.reg 9).getLsbD 2 ∧
      t.flags.c = (s.reg 9).getLsbD 1 ∧ t.flags.s = (s.reg 9).getLsbD 0) ∧
    (i.flagRow = .arithmetic → ∃ x y cin, addends i s = some (x, y, cin) ∧
      (i.decimal = false ∨ s.platform.bcdAdjust = .decAdd → ∃ res, AddsTo x y cin res t.flags) ∧
      (i.decimal = true → t.flags = (bcdAdjust s.platform.bcdAdjust x y).2)) ∧
    (i.flagRow ≠ .unaltered → i.flagRow ≠ .loaded → i.decimal = false ∨ s.platform.bcdAdjust = .decAdd →
      t.flags.z = true → t.flags.s = true)

/-- Outside the Branch, Jump, Call and Return Group P0 is left at the address after the instruction's last byte
(R30, R202), modulo 2^`ADDR_BITS` (D2, log 10). -/
def Obligations.SequentialInstructionsAdvanceP0 : Prop :=
  ∀ (i : Instr) (s t : State), exec i s = .next t → i.transfersControl = false →
    t.p0.toNat = (s.p0.toNat + i.length) % 2 ^ addrBits

/-- The machine is total (R320): every instruction completes, in every state, given a byte at DC for those that read it
and RAM at DC for ST; an undefined first byte is no instruction. That IN and OUT complete on ports 0 to 3 is the MODEL'S
CHOICE (DESIGN CHOICE, log 9): R284 and R341 (D20) refuse that step and R284 allows the access as the alternative for a
total model, which is taken. That a read register always has a value is the model's choice of reset values (log 1). -/
def Obligations.EveryInstructionCompletes : Prop :=
  ∀ (i : Instr) (s : State), (∀ op, i ≠ .undefined op) →
    (i.readsMemory = true → ∃ m, readMem s s.dc = .ok m) →
    (i = .st → kindAt s.platform s.dc = .ram) →
    Completes (exec i s)

/-- Where the byte at DC has no value, an instruction that reads it faults with the read's own fault, and ST to an
address that is not RAM is refused with that address (R62, R63; D3, logs 3, 25, 26). -/
def Obligations.MemoryOperandStops : Prop :=
  ∀ (i : Instr) (s : State),
    (i.readsMemory = true → ∀ e, readMem s s.dc = .error e → exec i s = .fault e) ∧
    (kindAt s.platform s.dc ≠ .ram → exec .st s = .refused (.storeNotRam s.dc))

/-- DC1 matters to XDC alone (R35): with another DC1 every other instruction does the same and leaves that DC1. -/
def Obligations.DC1IsInvisibleExceptToXDC : Prop :=
  ∀ (i : Instr) (s : State) (v : Addr), i ≠ .xdc →
    exec i (s.withDC1 v) = mapNext (State.withDC1 · v) (exec i s)

/-- `90 FF` is a branch to itself: with no request left and intInhibit clear, a step leaves the whole state unchanged
(R366, the spec's convention D23 for the end of a run). -/
def Obligations.BranchToSelfIsAFixedPoint : Prop :=
  ∀ s : State, s.intInhibit = false → s.requests = [] →
    readMem s s.p0 = .ok 0x90 → readMem s (s.p0 + 1) = .ok 0xFF → step s = .next s

-- Arithmetic and Logical Group

/-- AI, AM, AS, INC and LNK add (R140, R141, R143, R145, R157); C and O are as D9 takes them (log 15). AM moves DC on by
one modulo 2^`ADDR_BITS` (D2, log 10); AS reads the register its operand selects and moves IS as the operand says (D5, log 12). -/
def Obligations.AdditionResults : Prop :=
  ∀ (s : State) (ii m : Byte) (r : Scr),
    (∃ t, exec (.ai ii) s = .next t ∧ AddsTo s.a ii false t.a t.flags ∧
      t = { s with p0 := t.p0, intInhibit := t.intInhibit, a := t.a, flags := t.flags }) ∧
    (∃ t, exec .inc s = .next t ∧ AddsTo s.a 1 false t.a t.flags ∧
      t = { s with p0 := t.p0, intInhibit := t.intInhibit, a := t.a, flags := t.flags }) ∧
    (∃ t, exec .lnk s = .next t ∧ AddsTo s.a 0 s.flags.c t.a t.flags ∧
      t = { s with p0 := t.p0, intInhibit := t.intInhibit, a := t.a, flags := t.flags }) ∧
    (readMem s s.dc = .ok m → ∃ t, exec .am s = .next t ∧ AddsTo s.a m false t.a t.flags ∧
      t.dc.toNat = (s.dc.toNat + 1) % 2 ^ addrBits ∧
      t = { s with p0 := t.p0, intInhibit := t.intInhibit, a := t.a, flags := t.flags, dc := t.dc }) ∧
    (∃ t, exec (.asR r) s = .next t ∧ AddsTo s.a (s.reg (scrIndex r s.is)) false t.a t.flags ∧
      t = { s with p0 := t.p0, intInhibit := t.intInhibit, a := t.a, flags := t.flags, is := scrNextIS r s.is })

/-- CI and CM compare, DS decrements (R133, R150, R151, R153; D10, log 15): the operand minus A, A unchanged; DS changes
only the register its operand selects. -/
def Obligations.SubtractionResults : Prop :=
  ∀ (s : State) (ii m : Byte) (r : Scr),
    (∃ t, exec (.ci ii) s = .next t ∧ SubtractionFlags ii s.a t.flags ∧
      t = { s with p0 := t.p0, intInhibit := t.intInhibit, flags := t.flags }) ∧
    (readMem s s.dc = .ok m → ∃ t, exec .cm s = .next t ∧ SubtractionFlags m s.a t.flags ∧
      t.dc.toNat = (s.dc.toNat + 1) % 2 ^ addrBits ∧
      t = { s with p0 := t.p0, intInhibit := t.intInhibit, flags := t.flags, dc := t.dc }) ∧
    (∃ t, exec (.dsR r) s = .next t ∧
      (t.reg (scrIndex r s.is)).toNat = ((s.reg (scrIndex r s.is)).toNat + 255) % 256 ∧
      (∀ n, n ≠ scrIndex r s.is → t.reg n = s.reg n) ∧
      SubtractionFlags (s.reg (scrIndex r s.is)) 1 t.flags ∧
      t = { s with p0 := t.p0, intInhibit := t.intInhibit, scratch := t.scratch, flags := t.flags,
                   is := scrNextIS r s.is })

/-- AMD and ASD add packed decimals when one operand was biased by 0x66 first, where the parameter `bcdAdjust` is R135's
default `decAdd` (D11, log 16): for digits 0 to 9 the result is the packed sum modulo 100 and C the decimal carry. -/
def Obligations.DecimalAdditionOfDigits : Prop :=
  ∀ (s : State) (r : Scr) (x1 x0 y1 y0 : Nat), s.platform.bcdAdjust = .decAdd → x1 < 10 → x0 < 10 → y1 < 10 → y0 < 10 →
    s.a = BitVec.ofNat 8 (16 * x1 + x0 + 0x66) →
    (s.reg (scrIndex r s.is) = BitVec.ofNat 8 (16 * y1 + y0) →
      ∃ t, exec (.asdR r) s = .next t ∧
        t.a.toNat = 16 * (((10 * x1 + x0 + 10 * y1 + y0) / 10) % 10) + (10 * x1 + x0 + 10 * y1 + y0) % 10 ∧
        (t.flags.c = true ↔ 100 ≤ 10 * x1 + x0 + 10 * y1 + y0)) ∧
    (readMem s s.dc = .ok (BitVec.ofNat 8 (16 * y1 + y0)) →
      ∃ t, exec .amd s = .next t ∧
        t.a.toNat = 16 * (((10 * x1 + x0 + 10 * y1 + y0) / 10) % 10) + (10 * x1 + x0 + 10 * y1 + y0) % 10 ∧
        (t.flags.c = true ↔ 100 ≤ 10 * x1 + x0 + 10 * y1 + y0))

/-- AMD and ASD on all operands and for every choice of the parameter `bcdAdjust` (R7, R135): A and the flags are that
function's of A and the operand, and nothing else changes but DC, or IS; where it is the default `decAdd` (D11, log 16)
the flags are those of the binary sum and each digit that gave no carry has 10 added modulo 16. -/
def Obligations.DecimalAdditionResults : Prop :=
  ∀ (s : State) (m : Byte) (r : Scr),
    (readMem s s.dc = .ok m → ∃ t, exec .amd s = .next t ∧
      (t.a, t.flags) = bcdAdjust s.platform.bcdAdjust s.a m ∧
      (s.platform.bcdAdjust = .decAdd → DecimallyAdds s.a m t.a t.flags) ∧
      t.dc.toNat = (s.dc.toNat + 1) % 2 ^ addrBits ∧
      t = { s with p0 := t.p0, intInhibit := t.intInhibit, a := t.a, flags := t.flags, dc := t.dc }) ∧
    (∃ t, exec (.asdR r) s = .next t ∧
      (t.a, t.flags) = bcdAdjust s.platform.bcdAdjust s.a (s.reg (scrIndex r s.is)) ∧
      (s.platform.bcdAdjust = .decAdd → DecimallyAdds s.a (s.reg (scrIndex r s.is)) t.a t.flags) ∧
      t = { s with p0 := t.p0, intInhibit := t.intInhibit, a := t.a, flags := t.flags, is := scrNextIS r s.is })

/-- NI, OI, XI and COM (R147, R158, R154, R152) with their object codes: A bit by bit, the flags by R132, and nothing
else. -/
def Obligations.LogicalImmediateResults : Prop :=
  ∀ (sw : Bool) (s : State) (ii : Byte),
    (encode sw (.ni ii) = [0x21, ii] ∧ ∃ t, exec (.ni ii) s = .next t ∧ PastBytes 2 s t ∧
      (∀ k, k < 8 → t.a.getLsbD k = (s.a.getLsbD k && ii.getLsbD k)) ∧ LogicalFlags t.a t.flags ∧
      t = { s with p0 := t.p0, intInhibit := t.intInhibit, a := t.a, flags := t.flags }) ∧
    (encode sw (.oi ii) = [0x22, ii] ∧ ∃ t, exec (.oi ii) s = .next t ∧ PastBytes 2 s t ∧
      (∀ k, k < 8 → t.a.getLsbD k = (s.a.getLsbD k || ii.getLsbD k)) ∧ LogicalFlags t.a t.flags ∧
      t = { s with p0 := t.p0, intInhibit := t.intInhibit, a := t.a, flags := t.flags }) ∧
    (encode sw (.xi ii) = [0x23, ii] ∧ ∃ t, exec (.xi ii) s = .next t ∧ PastBytes 2 s t ∧
      (∀ k, k < 8 → t.a.getLsbD k = (s.a.getLsbD k ^^ ii.getLsbD k)) ∧ LogicalFlags t.a t.flags ∧
      t = { s with p0 := t.p0, intInhibit := t.intInhibit, a := t.a, flags := t.flags }) ∧
    (encode sw .com = [0x18] ∧ ∃ t, exec .com s = .next t ∧ PastBytes 1 s t ∧
      (∀ k, k < 8 → t.a.getLsbD k = !(s.a.getLsbD k)) ∧ LogicalFlags t.a t.flags ∧
      t = { s with p0 := t.p0, intInhibit := t.intInhibit, a := t.a, flags := t.flags })

/-- NM, OM, XM, NS and XS (R148, R159, R155, R149, R156): A bit by bit, the flags by R132; the memory forms move DC on by
one modulo 2^`ADDR_BITS` (D2, log 10), the scratchpad forms move IS as the operand says (D5, log 12). -/
def Obligations.LogicalMemoryAndScratchpadResults : Prop :=
  ∀ (s : State) (m : Byte) (r : Scr),
    (readMem s s.dc = .ok m →
      (∃ t, exec .nm s = .next t ∧ (∀ k, k < 8 → t.a.getLsbD k = (s.a.getLsbD k && m.getLsbD k)) ∧
        LogicalFlags t.a t.flags ∧ t.dc.toNat = (s.dc.toNat + 1) % 2 ^ addrBits ∧
        t = { s with p0 := t.p0, intInhibit := t.intInhibit, a := t.a, flags := t.flags, dc := t.dc }) ∧
      (∃ t, exec .om s = .next t ∧ (∀ k, k < 8 → t.a.getLsbD k = (s.a.getLsbD k || m.getLsbD k)) ∧
        LogicalFlags t.a t.flags ∧ t.dc.toNat = (s.dc.toNat + 1) % 2 ^ addrBits ∧
        t = { s with p0 := t.p0, intInhibit := t.intInhibit, a := t.a, flags := t.flags, dc := t.dc }) ∧
      (∃ t, exec .xm s = .next t ∧ (∀ k, k < 8 → t.a.getLsbD k = (s.a.getLsbD k ^^ m.getLsbD k)) ∧
        LogicalFlags t.a t.flags ∧ t.dc.toNat = (s.dc.toNat + 1) % 2 ^ addrBits ∧
        t = { s with p0 := t.p0, intInhibit := t.intInhibit, a := t.a, flags := t.flags, dc := t.dc })) ∧
    (∃ t, exec (.nsR r) s = .next t ∧
      (∀ k, k < 8 → t.a.getLsbD k = (s.a.getLsbD k && (s.reg (scrIndex r s.is)).getLsbD k)) ∧
      LogicalFlags t.a t.flags ∧
      t = { s with p0 := t.p0, intInhibit := t.intInhibit, a := t.a, flags := t.flags, is := scrNextIS r s.is }) ∧
    (∃ t, exec (.xsR r) s = .next t ∧
      (∀ k, k < 8 → t.a.getLsbD k = (s.a.getLsbD k ^^ (s.reg (scrIndex r s.is)).getLsbD k)) ∧
      LogicalFlags t.a t.flags ∧
      t = { s with p0 := t.p0, intInhibit := t.intInhibit, a := t.a, flags := t.flags, is := scrNextIS r s.is })

/-- SL 1, SL 4, SR 1 and SR 4 (R160 to R163) with their object codes: logical shifts in numbers, the bits shifted out
are lost, O and C are cleared, S is set by the right shifts. -/
def Obligations.ShiftResults : Prop :=
  ∀ (sw : Bool) (s : State),
    (encode sw .sl1 = [0x13] ∧ ∃ t, exec .sl1 s = .next t ∧ PastBytes 1 s t ∧
      t.a.toNat = 2 * s.a.toNat % 256 ∧ LogicalFlags t.a t.flags ∧
      t = { s with p0 := t.p0, intInhibit := t.intInhibit, a := t.a, flags := t.flags }) ∧
    (encode sw .sl4 = [0x15] ∧ ∃ t, exec .sl4 s = .next t ∧ PastBytes 1 s t ∧
      t.a.toNat = 16 * s.a.toNat % 256 ∧ LogicalFlags t.a t.flags ∧
      t = { s with p0 := t.p0, intInhibit := t.intInhibit, a := t.a, flags := t.flags }) ∧
    (encode sw .sr1 = [0x12] ∧ ∃ t, exec .sr1 s = .next t ∧ PastBytes 1 s t ∧
      t.a.toNat = s.a.toNat / 2 ∧ LogicalFlags t.a t.flags ∧
      t.flags.s = true ∧
      t = { s with p0 := t.p0, intInhibit := t.intInhibit, a := t.a, flags := t.flags }) ∧
    (encode sw .sr4 = [0x14] ∧ ∃ t, exec .sr4 s = .next t ∧ PastBytes 1 s t ∧
      t.a.toNat = s.a.toNat / 16 ∧ LogicalFlags t.a t.flags ∧
      t.flags.s = true ∧
      t = { s with p0 := t.p0, intInhibit := t.intInhibit, a := t.a, flags := t.flags })

/-- ADC (R142): DC plus A read as a signed number, modulo 2^`ADDR_BITS` (D2, log 10); A and the flags stay. -/
def Obligations.AddToDataCounterResult : Prop :=
  ∀ s : State, ∃ t, exec .adc s = .next t ∧
    (t.dc.toNat : Int) = ((s.dc.toNat : Int) + s.a.toInt) % 2 ^ addrBits ∧
    t = { s with p0 := t.p0, intInhibit := t.intInhibit, dc := t.dc }

/-- The register a scratchpad operand selects and what it does to IS, seen through LR A,r and LR r,A (R98, R29, R230,
R231; the register is the one IS points to before it moves: D5, the wrap of the decrement: D6, log 12). -/
def Obligations.ScratchpadOperandForms : Prop :=
  ∀ (s : State) (n : Fin 12) (r : Scr),
    (∃ t, exec (.lrAR r) s = .next t ∧ t.a = s.reg (scrIndex r s.is) ∧
      t = { s with p0 := t.p0, intInhibit := t.intInhibit, a := t.a, is := scrNextIS r s.is }) ∧
    (∃ t, exec (.lrRA r) s = .next t ∧ t.reg (scrIndex r s.is) = s.a ∧
      (∀ k, k ≠ scrIndex r s.is → t.reg k = s.reg k) ∧
      t = { s with p0 := t.p0, intInhibit := t.intInhibit, scratch := t.scratch, is := scrNextIS r s.is }) ∧
    ((scrIndex (.direct n) s.is).toNat = n.val ∧ scrNextIS (.direct n) s.is = s.is) ∧
    (scrIndex .viaIS s.is = s.is ∧ scrNextIS .viaIS s.is = s.is) ∧
    (scrIndex .viaISInc s.is = s.is ∧
      (scrNextIS .viaISInc s.is).toNat = 8 * (s.is.toNat / 8) + (s.is.toNat % 8 + 1) % 8) ∧
    (scrIndex .viaISDec s.is = s.is ∧
      (scrNextIS .viaISDec s.is).toNat = 8 * (s.is.toNat / 8) + (s.is.toNat % 8 + 7) % 8)

-- Branch, Jump, Call and Return Group

/-- BT, BF and BR7 (R181, R182, R188): taken exactly when a tested flag of BT is 1, when every tested flag of BF is 0,
when ISL is not 7; taken, P0 goes to the address of the displacement byte plus the signed displacement, modulo 2^`ADDR_BITS` (R99,
D2, log 10), otherwise past the two bytes; nothing else changes. BR7 rests on D14 (log 19). -/
def Obligations.ConditionalBranchResults : Prop :=
  ∀ (s : State) (t3 : BitVec 3) (t4 : BitVec 4) (d : Byte),
    (∃ t, exec (.bt t3 d) s = .next t ∧
      branchOutcome s.p0 d
        ((t3.getLsbD 2 = true ∧ s.flags.z = true) ∨ (t3.getLsbD 1 = true ∧ s.flags.c = true) ∨
          (t3.getLsbD 0 = true ∧ s.flags.s = true)) t.p0 ∧
      t = { s with p0 := t.p0, intInhibit := t.intInhibit }) ∧
    (∃ t, exec (.bf t4 d) s = .next t ∧
      branchOutcome s.p0 d
        ((t4.getLsbD 3 = true → s.flags.o = false) ∧ (t4.getLsbD 2 = true → s.flags.z = false) ∧
          (t4.getLsbD 1 = true → s.flags.c = false) ∧ (t4.getLsbD 0 = true → s.flags.s = false)) t.p0 ∧
      t = { s with p0 := t.p0, intInhibit := t.intInhibit }) ∧
    (∃ t, exec (.br7 d) s = .next t ∧ branchOutcome s.p0 d (s.is.toNat % 8 ≠ 7) t.p0 ∧
      t = { s with p0 := t.p0, intInhibit := t.intInhibit })

/-- The branches with a condition in their name (R183 to R187, R189 to R191): taken exactly on that condition, to the
target of R99 modulo 2^`ADDR_BITS` (D2, log 10); nothing else changes. -/
def Obligations.NamedBranchResults : Prop :=
  ∀ (s : State) (d : Byte) (i : Instr) (taken : Prop),
    (i, taken) ∈ [(Instr.br d, True), (.bm d, s.flags.s = false), (.bnc d, s.flags.c = false),
      (.bno d, s.flags.o = false), (.bnz d, s.flags.z = false), (.bc d, s.flags.c = true),
      (.bp d, s.flags.s = true), (.bz d, s.flags.z = true)] →
    ∃ t, exec i s = .next t ∧ branchOutcome s.p0 d taken t.p0 ∧
      t = { s with p0 := t.p0, intInhibit := t.intInhibit }

/-- JMP, LR P0,Q, PI, PK and POP (R196 to R200): where P0 goes, what P saves (the address after the instruction, D27),
that JMP and PI leave the upper byte of the address in A (D24), that POP copies (D16); logs 21 and 24. -/
def Obligations.JumpCallReturnResults : Prop :=
  ∀ (s : State) (hh ll : Byte),
    (∃ t, exec (.jmp (hh ++ ll)) s = .next t ∧ t.p0 = pairValue hh ll ∧ t.a = hh ∧
      t = { s with p0 := t.p0, intInhibit := t.intInhibit, a := t.a }) ∧
    (∃ t, exec .lrP0Q s = .next t ∧ t.p0 = pairValue (s.reg 14) (s.reg 15) ∧
      t = { s with p0 := t.p0, intInhibit := t.intInhibit }) ∧
    (∃ t, exec (.pi (hh ++ ll)) s = .next t ∧ t.p0 = pairValue hh ll ∧ t.a = hh ∧
      t.p.toNat = (s.p0.toNat + 3) % 2 ^ addrBits ∧
      t = { s with p0 := t.p0, intInhibit := t.intInhibit, a := t.a, p := t.p }) ∧
    (∃ t, exec .pk s = .next t ∧ t.p0 = pairValue (s.reg 12) (s.reg 13) ∧
      t.p.toNat = (s.p0.toNat + 1) % 2 ^ addrBits ∧
      t = { s with p0 := t.p0, intInhibit := t.intInhibit, p := t.p }) ∧
    (∃ t, exec .pop s = .next t ∧ t.p0 = s.p ∧ t = { s with p0 := t.p0, intInhibit := t.intInhibit })

/-- A second level of calls (R201, which the spec derives; D16, D27, logs 21 and 24): a routine called by PI that saves P
with LR K,P on entry returns to the byte after the PI by LR P,K and POP, and also by PK, whatever it does to P and to the
other registers in between as long as K keeps its two bytes. -/
def Obligations.SecondLevelReturn : Prop :=
  ∀ (s : State) (iiii : Word16), ∃ t u, exec (.pi iiii) s = .next t ∧ exec .lrKP t = .next u ∧
    ∀ v : State, v.reg 12 = u.reg 12 → v.reg 13 = u.reg 13 →
      (∃ w x, exec .lrPK v = .next w ∧ exec .pop w = .next x ∧ x.p0.toNat = (s.p0.toNat + 3) % 2 ^ addrBits) ∧
      (∃ w, exec .pk v = .next w ∧ w.p0.toNat = (s.p0.toNat + 3) % 2 ^ addrBits)

-- Accumulator Data Movement Group

/-- The eight moves between A and the halves of K and Q (R222 to R229) with their object codes; the source keeps its
value, no flag and nothing else changes. -/
def Obligations.LinkageHalfMoves : Prop :=
  ∀ (sw : Bool) (s : State),
    (∀ (i : Instr) (op : Byte) (n : ScratchIdx),
      (i, op, n) ∈ [(Instr.lrAKU, (0x00 : Byte), (12 : ScratchIdx)), (.lrAKL, 0x01, 13), (.lrAQU, 0x02, 14), (.lrAQL, 0x03, 15)] →
      encode sw i = [op] ∧ ∃ t, exec i s = .next t ∧ PastBytes 1 s t ∧ t.a = s.reg n ∧
        t = { s with p0 := t.p0, intInhibit := t.intInhibit, a := t.a }) ∧
    (∀ (i : Instr) (op : Byte) (n : ScratchIdx),
      (i, op, n) ∈ [(Instr.lrKUA, (0x04 : Byte), (12 : ScratchIdx)), (.lrKLA, 0x05, 13), (.lrQUA, 0x06, 14), (.lrQLA, 0x07, 15)] →
      encode sw i = [op] ∧ ∃ t, exec i s = .next t ∧ PastBytes 1 s t ∧ t.reg n = s.a ∧ (∀ k, k ≠ n → t.reg k = s.reg k) ∧
        t = { s with p0 := t.p0, intInhibit := t.intInhibit, scratch := t.scratch })

/-- CLR, LI and LIS (R221, R232, R233) with their object codes: the value loaded, a 4-bit immediate zero-extended; no flag
and nothing else changes. -/
def Obligations.ImmediateLoads : Prop :=
  ∀ (sw : Bool) (s : State) (ii : Byte) (i : BitVec 4),
    (encode sw .clr = [0x70] ∧ ∃ t, exec .clr s = .next t ∧ PastBytes 1 s t ∧ t.a.toNat = 0 ∧
      t = { s with p0 := t.p0, intInhibit := t.intInhibit, a := t.a }) ∧
    (encode sw (.li ii) = [0x20, ii] ∧ ∃ t, exec (.li ii) s = .next t ∧ PastBytes 2 s t ∧ t.a = ii ∧
      t = { s with p0 := t.p0, intInhibit := t.intInhibit, a := t.a }) ∧
    (encode sw (.lis i) = [BitVec.ofNat 8 (0x70 + i.toNat)] ∧ ∃ t, exec (.lis i) s = .next t ∧ PastBytes 1 s t ∧
      t.a.toNat = i.toNat ∧
      t = { s with p0 := t.p0, intInhibit := t.intInhibit, a := t.a })

/-- LM loads the byte at DC and ST, where DC points to RAM, stores A at DC; both move DC on by one, modulo 2^`ADDR_BITS` (R234,
R235; D2, log 10). The byte stored is the byte a read of that address gives from then on, a fetch's read among them (R76,
D22, log 27), and every other address reads as before. -/
def Obligations.LoadAndStore : Prop :=
  ∀ (s : State) (m : Byte),
    (readMem s s.dc = .ok m → ∃ t, exec .lm s = .next t ∧ t.a = m ∧ t.dc.toNat = (s.dc.toNat + 1) % 2 ^ addrBits ∧
      t = { s with p0 := t.p0, intInhibit := t.intInhibit, a := t.a, dc := t.dc }) ∧
    (kindAt s.platform s.dc = .ram → ∃ t, exec .st s = .next t ∧ readMem t s.dc = .ok s.a ∧
      (∀ a : Addr, a ≠ s.dc → readMem t a = readMem s a) ∧ t.dc.toNat = (s.dc.toNat + 1) % 2 ^ addrBits ∧
      t = { s with p0 := t.p0, intInhibit := t.intInhibit, mem := t.mem, dc := t.dc })

-- Address Register Group

/-- DCI, XDC, LR DC,Q, LR DC,H and LR P,K (R251 to R253, R255, R261): the register loaded, the upper byte from the
lower-numbered register (H by D26, log 11); nothing else changes. -/
def Obligations.AddressRegisterLoads : Prop :=
  ∀ (s : State) (hh ll : Byte),
    (∃ t, exec (.dci (hh ++ ll)) s = .next t ∧ t.dc = pairValue hh ll ∧
      t = { s with p0 := t.p0, intInhibit := t.intInhibit, dc := t.dc }) ∧
    (∃ t, exec .xdc s = .next t ∧
      t = { s with p0 := t.p0, intInhibit := t.intInhibit, dc := s.dc1, dc1 := s.dc }) ∧
    (∃ t, exec .lrDCQ s = .next t ∧ t.dc = pairValue (s.reg 14) (s.reg 15) ∧
      t = { s with p0 := t.p0, intInhibit := t.intInhibit, dc := t.dc }) ∧
    (∃ t, exec .lrDCH s = .next t ∧ t.dc = pairValue (s.reg 10) (s.reg 11) ∧
      t = { s with p0 := t.p0, intInhibit := t.intInhibit, dc := t.dc }) ∧
    (∃ t, exec .lrPK s = .next t ∧ t.p = pairValue (s.reg 12) (s.reg 13) ∧
      t = { s with p0 := t.p0, intInhibit := t.intInhibit, p := t.p })

/-- LR Q,DC, LR H,DC and LR K,P (R254, R256, R262): the two registers of the pair receive the upper and the lower byte (H
by D26, log 11); no other register and nothing else changes. -/
def Obligations.AddressRegisterStores : Prop :=
  ∀ (s : State) (i : Instr) (v : Addr) (u l : ScratchIdx),
    (i, v, u, l) ∈ [(Instr.lrQDC, s.dc, (14 : ScratchIdx), (15 : ScratchIdx)), (.lrHDC, s.dc, 10, 11), (.lrKP, s.p, 12, 13)] →
    ∃ t, exec i s = .next t ∧ (t.reg u).toNat = v.toNat / 256 ∧ (t.reg l).toNat = v.toNat % 256 ∧
      (∀ k, k ≠ u → k ≠ l → t.reg k = s.reg k) ∧
      t = { s with p0 := t.p0, intInhibit := t.intInhibit, scratch := t.scratch }

/-- LISL, LISU, LR IS,A and LR A,IS (R257 to R260; D8, log 14): one half of IS replaced and the other kept, IS from the
low six bits of A, A from IS with two zero bits above. -/
def Obligations.ScratchpadPointerLoads : Prop :=
  ∀ (s : State) (b : BitVec 3),
    (∃ t, exec (.lisl b) s = .next t ∧ t.is.toNat = 8 * (s.is.toNat / 8) + b.toNat ∧
      t = { s with p0 := t.p0, intInhibit := t.intInhibit, is := t.is }) ∧
    (∃ t, exec (.lisu b) s = .next t ∧ t.is.toNat = 8 * b.toNat + s.is.toNat % 8 ∧
      t = { s with p0 := t.p0, intInhibit := t.intInhibit, is := t.is }) ∧
    (∃ t, exec .lrISA s = .next t ∧ t.is.toNat = s.a.toNat % 64 ∧
      t = { s with p0 := t.p0, intInhibit := t.intInhibit, is := t.is }) ∧
    (∃ t, exec .lrAIS s = .next t ∧ t.a.toNat = s.is.toNat ∧
      t = { s with p0 := t.p0, intInhibit := t.intInhibit, a := t.a })

-- Input/Output Group

/-- IN and INS (R282, R283, R66): A is the answer, whatever it is, the environment's next one where it has given one, the
flags as R281 takes them (D12, log 17), the event is reported; IN on every port, 0 to 3 among them (R284's alternative,
the model's choice, log 9). Where the environment has given no answer the value is free: nothing is said of it. -/
def Obligations.InputResults : Prop :=
  ∀ (s : State) (pp : Byte) (p : BitVec 4) (i : Instr) (port : Byte),
    (i, port) ∈ [(Instr.inP pp, pp), (.insP p, BitVec.ofNat 8 p.toNat)] →
    ∃ t, exec i s = .next t ∧ LogicalFlags t.a t.flags ∧
      (∀ v later, s.portIn = v :: later → t.a = v ∧ t.portIn = later) ∧
      (s.portIn = [] → t.portIn = []) ∧
      t.events = s.events ++ [.portRead port t.a] ∧ t.portReads = s.portReads + 1 ∧
      t = { s with p0 := t.p0, intInhibit := t.intInhibit, a := t.a, flags := t.flags, portIn := t.portIn,
                   portReads := t.portReads, events := t.events }

/-- OUT and OUTS (R285, R286, R67): the event, A and the flags unchanged; OUT on every port, 0 to 3 among them (R284's
alternative, the model's choice, log 9). -/
def Obligations.OutputResults : Prop :=
  ∀ (s : State) (pp : Byte) (p : BitVec 4) (i : Instr) (port : Byte),
    (i, port) ∈ [(Instr.outP pp, pp), (.outsP p, BitVec.ofNat 8 p.toNat)] →
    ∃ t, exec i s = .next t ∧
      t = { s with p0 := t.p0, intInhibit := t.intInhibit, events := s.events ++ [.portWrite port s.a] }

-- CPU Control Group

/-- DI and EI (R301, R302): ICB alone. -/
def Obligations.InterruptEnableControl : Prop :=
  ∀ s : State,
    (∃ t, exec .di s = .next t ∧ t = { s with p0 := t.p0, intInhibit := t.intInhibit, icb := false }) ∧
    (∃ t, exec .ei s = .next t ∧ t = { s with p0 := t.p0, intInhibit := t.intInhibit, icb := true })

/-- LR W,J and LR J,W (R303, R304; ICB in bit 4 and the zero upper bits are D7, log 13), in numbers. -/
def Obligations.StatusRegisterMoves : Prop :=
  ∀ s : State,
    (∃ t, exec .lrWJ s = .next t ∧
      16 * t.icb.toNat + 8 * t.flags.o.toNat + 4 * t.flags.z.toNat + 2 * t.flags.c.toNat + t.flags.s.toNat
        = (s.reg 9).toNat % 32 ∧
      t = { s with p0 := t.p0, intInhibit := t.intInhibit, icb := t.icb, flags := t.flags }) ∧
    (∃ t, exec .lrJW s = .next t ∧
      (t.reg 9).toNat
        = 16 * s.icb.toNat + 8 * s.flags.o.toNat + 4 * s.flags.z.toNat + 2 * s.flags.c.toNat + s.flags.s.toNat ∧
      (∀ k, k ≠ 9 → t.reg k = s.reg k) ∧
      t = { s with p0 := t.p0, intInhibit := t.intInhibit, scratch := t.scratch })

/-- LR J,W saves and LR W,J restores the whole of W, whatever happened in between, as long as J keeps its byte (R303;
D7, log 13). -/
def Obligations.StatusSaveAndRestore : Prop :=
  ∀ s : State, ∃ t, exec .lrJW s = .next t ∧
    ∀ u : State, u.reg 9 = t.reg 9 → ∃ v, exec .lrWJ u = .next v ∧ v.flags = s.flags ∧ v.icb = s.icb

/-- NOP (R305) with its object code: P0 goes on by one and nothing else changes; it carries no privileged mark, takes
2 microseconds, and opcode 00 is another instruction. -/
def Obligations.NoOperation : Prop :=
  ∀ (sw : Bool) (s : State) (b1 b2 : Byte),
    encode sw .nop = [0x2B] ∧ decodeBytes sw 0x00 b1 b2 ≠ .nop ∧ Instr.nop.privileged = false ∧ micros .nop s = some 2 ∧
    ∃ t, exec .nop s = .next t ∧ PastBytes 1 s t ∧ t = { s with p0 := t.p0, intInhibit := t.intInhibit }

-- Timing

/-- The cycle letters of every row add up to its printed time, but for the rows R372 names, where they add up to less;
the sums with S = 2 and L = 3 microseconds (R370). -/
def Obligations.CycleSumsMatchTheTimes : Prop :=
  ∀ (i : Instr) (s : State) (cycles : List Cycle) (t : Nat), cyclesPrinted i s = some cycles → micros i s = some t →
    (cycleCellTruncated i = false → (cycles.map Cycle.micros).sum = t) ∧
    (cycleCellTruncated i = true → (cycles.map Cycle.micros).sum < t)
end

