-- ==== Sys2Proof/Laws/Flags.lean ====
section
/-! SUPPORT. For each flag computation one lemma that says once, in numbers, what it gives. -/

namespace Sys2Proof.Machine

/-- S of a result, in numbers. -/
theorem signFlag_iff (v : Byte) : signFlag v = true ↔ v.toNat < 128 := by revert v; decide

/-- Z of a result. -/
theorem zeroFlag_iff (v : Byte) : zeroFlag v = true ↔ v = 0 := by simp [zeroFlag]

/-- A carry in as a number. -/
theorem toNat_carry (c : Bool) : (BitVec.ofBool c).toNat = c.toNat := by cases c <;> rfl

/-- The adder's carry out of bit 7. -/
theorem add8_c (a b : Byte) (c : Bool) : (add8 a b c).2.c = decide (256 ≤ a.toNat + b.toNat + c.toNat) := by
  have ha := a.isLt
  have hb := b.isLt
  have hc : c.toNat ≤ 1 := Bool.toNat_le c
  simp only [add8, BitVec.getLsbD, Nat.testBit_eq_decide_div_mod_eq, BitVec.toNat_add, BitVec.toNat_setWidth, toNat_carry]
  rw [decide_eq_decide]
  omega

/-- The adder's result. -/
theorem add8_toNat (a b : Byte) (c : Bool) : (add8 a b c).1.toNat = (a.toNat + b.toNat + c.toNat) % 256 := by
  have ha := a.isLt
  have hb := b.isLt
  have hc : c.toNat ≤ 1 := Bool.toNat_le c
  simp only [add8, BitVec.toNat_add, BitVec.toNat_setWidth, toNat_carry]
  omega

/-- The adder's signed overflow. -/
theorem add8_o (a b : Byte) (c : Bool) : (add8 a b c).2.o = true ↔
    a.toInt + b.toInt + c.toNat < -128 ∨ 127 < a.toInt + b.toInt + c.toNat := by
  have ha := a.isLt
  have hb := b.isLt
  have hc : c.toNat ≤ 1 := Bool.toNat_le c
  have h7 := add8_c a b c
  have h6 : (add8 a b c).2.o = ((add8 a b c).2.c ^^ decide (128 ≤ a.toNat % 128 + b.toNat % 128 + c.toNat)) := by
    simp only [add8]
    congr 1
    simp only [BitVec.getLsbD, Nat.testBit_eq_decide_div_mod_eq, BitVec.toNat_add, BitVec.toNat_setWidth, toNat_carry]
    rw [decide_eq_decide]
    omega
  rw [h6, h7, BitVec.toInt_eq_toNat_cond, BitVec.toInt_eq_toNat_cond]
  simp only [bne_iff_ne, ne_eq, decide_eq_decide]
  split <;> split <;> omega

/-- Everything the adder does (R131). -/
theorem add8_addsTo (a b : Byte) (c : Bool) : AddsTo a b c (add8 a b c).1 (add8 a b c).2 :=
  ⟨add8_toNat a b c, by simp [add8_c], add8_o a b c, zeroFlag_iff _, signFlag_iff _⟩

/-- Everything the flags of a logical result say (R132). -/
theorem logic8_flags (v : Byte) : LogicalFlags v (logic8 v) := by
  refine ⟨rfl, rfl, ?_, signFlag_iff v⟩
  rw [show (logic8 v).z = zeroFlag v from rfl, zeroFlag_iff]
  exact ⟨fun h => by simp [h], fun h => BitVec.eq_of_toNat_eq h⟩

/-- The parameter `bcdAdjust` at its default is `decAdd` (R135). -/
@[simp] theorem bcdAdjust_decAdd (a b : Byte) : bcdAdjust .decAdd a b = decAdd a b := rfl

/-- The flags of `decAdd` are those of the binary sum (R135). -/
@[simp] theorem decAdd_flags (a b : Byte) : (decAdd a b).2 = (add8 a b false).2 := rfl

end Sys2Proof.Machine
end

