-- ==== Sys2Proof/Laws/State.lean ====
section
/-! SUPPORT. One lemma per field per update of the state, true by rfl: no later proof unfolds an update. -/

namespace Sys2Proof.Machine

section
variable (s : State)

-- State.setReg
@[simp] theorem State.setReg_a (n : ScratchIdx) (v : Byte) : (s.setReg n v).a = s.a := rfl
@[simp] theorem State.setReg_scratch (n : ScratchIdx) (v : Byte) : (s.setReg n v).scratch = s.scratch.set n.toNat v n.isLt := rfl
@[simp] theorem State.setReg_flags (n : ScratchIdx) (v : Byte) : (s.setReg n v).flags = s.flags := rfl
@[simp] theorem State.setReg_icb (n : ScratchIdx) (v : Byte) : (s.setReg n v).icb = s.icb := rfl
@[simp] theorem State.setReg_is (n : ScratchIdx) (v : Byte) : (s.setReg n v).is = s.is := rfl
@[simp] theorem State.setReg_p0 (n : ScratchIdx) (v : Byte) : (s.setReg n v).p0 = s.p0 := rfl
@[simp] theorem State.setReg_p (n : ScratchIdx) (v : Byte) : (s.setReg n v).p = s.p := rfl
@[simp] theorem State.setReg_dc (n : ScratchIdx) (v : Byte) : (s.setReg n v).dc = s.dc := rfl
@[simp] theorem State.setReg_dc1 (n : ScratchIdx) (v : Byte) : (s.setReg n v).dc1 = s.dc1 := rfl
@[simp] theorem State.setReg_intInhibit (n : ScratchIdx) (v : Byte) : (s.setReg n v).intInhibit = s.intInhibit := rfl
@[simp] theorem State.setReg_mem (n : ScratchIdx) (v : Byte) : (s.setReg n v).mem = s.mem := rfl
@[simp] theorem State.setReg_platform (n : ScratchIdx) (v : Byte) : (s.setReg n v).platform = s.platform := rfl
@[simp] theorem State.setReg_portIn (n : ScratchIdx) (v : Byte) : (s.setReg n v).portIn = s.portIn := rfl
@[simp] theorem State.setReg_portReads (n : ScratchIdx) (v : Byte) : (s.setReg n v).portReads = s.portReads := rfl
@[simp] theorem State.setReg_requests (n : ScratchIdx) (v : Byte) : (s.setReg n v).requests = s.requests := rfl
@[simp] theorem State.setReg_events (n : ScratchIdx) (v : Byte) : (s.setReg n v).events = s.events := rfl

-- State.setRegPair
@[simp] theorem State.setRegPair_a (u l : ScratchIdx) (v : Addr) : (s.setRegPair u l v).a = s.a := rfl
@[simp] theorem State.setRegPair_flags (u l : ScratchIdx) (v : Addr) : (s.setRegPair u l v).flags = s.flags := rfl
@[simp] theorem State.setRegPair_icb (u l : ScratchIdx) (v : Addr) : (s.setRegPair u l v).icb = s.icb := rfl
@[simp] theorem State.setRegPair_is (u l : ScratchIdx) (v : Addr) : (s.setRegPair u l v).is = s.is := rfl
@[simp] theorem State.setRegPair_p0 (u l : ScratchIdx) (v : Addr) : (s.setRegPair u l v).p0 = s.p0 := rfl
@[simp] theorem State.setRegPair_p (u l : ScratchIdx) (v : Addr) : (s.setRegPair u l v).p = s.p := rfl
@[simp] theorem State.setRegPair_dc (u l : ScratchIdx) (v : Addr) : (s.setRegPair u l v).dc = s.dc := rfl
@[simp] theorem State.setRegPair_dc1 (u l : ScratchIdx) (v : Addr) : (s.setRegPair u l v).dc1 = s.dc1 := rfl
@[simp] theorem State.setRegPair_intInhibit (u l : ScratchIdx) (v : Addr) : (s.setRegPair u l v).intInhibit = s.intInhibit := rfl
@[simp] theorem State.setRegPair_mem (u l : ScratchIdx) (v : Addr) : (s.setRegPair u l v).mem = s.mem := rfl
@[simp] theorem State.setRegPair_platform (u l : ScratchIdx) (v : Addr) : (s.setRegPair u l v).platform = s.platform := rfl
@[simp] theorem State.setRegPair_portIn (u l : ScratchIdx) (v : Addr) : (s.setRegPair u l v).portIn = s.portIn := rfl
@[simp] theorem State.setRegPair_portReads (u l : ScratchIdx) (v : Addr) : (s.setRegPair u l v).portReads = s.portReads := rfl
@[simp] theorem State.setRegPair_requests (u l : ScratchIdx) (v : Addr) : (s.setRegPair u l v).requests = s.requests := rfl
@[simp] theorem State.setRegPair_events (u l : ScratchIdx) (v : Addr) : (s.setRegPair u l v).events = s.events := rfl

-- State.stepIS
@[simp] theorem State.stepIS_a (r : Scr) : (s.stepIS r).a = s.a := rfl
@[simp] theorem State.stepIS_scratch (r : Scr) : (s.stepIS r).scratch = s.scratch := rfl
@[simp] theorem State.stepIS_flags (r : Scr) : (s.stepIS r).flags = s.flags := rfl
@[simp] theorem State.stepIS_icb (r : Scr) : (s.stepIS r).icb = s.icb := rfl
@[simp] theorem State.stepIS_is (r : Scr) : (s.stepIS r).is = scrNextIS r s.is := rfl
@[simp] theorem State.stepIS_p0 (r : Scr) : (s.stepIS r).p0 = s.p0 := rfl
@[simp] theorem State.stepIS_p (r : Scr) : (s.stepIS r).p = s.p := rfl
@[simp] theorem State.stepIS_dc (r : Scr) : (s.stepIS r).dc = s.dc := rfl
@[simp] theorem State.stepIS_dc1 (r : Scr) : (s.stepIS r).dc1 = s.dc1 := rfl
@[simp] theorem State.stepIS_intInhibit (r : Scr) : (s.stepIS r).intInhibit = s.intInhibit := rfl
@[simp] theorem State.stepIS_mem (r : Scr) : (s.stepIS r).mem = s.mem := rfl
@[simp] theorem State.stepIS_platform (r : Scr) : (s.stepIS r).platform = s.platform := rfl
@[simp] theorem State.stepIS_portIn (r : Scr) : (s.stepIS r).portIn = s.portIn := rfl
@[simp] theorem State.stepIS_portReads (r : Scr) : (s.stepIS r).portReads = s.portReads := rfl
@[simp] theorem State.stepIS_requests (r : Scr) : (s.stepIS r).requests = s.requests := rfl
@[simp] theorem State.stepIS_events (r : Scr) : (s.stepIS r).events = s.events := rfl

-- State.fetched
@[simp] theorem State.fetched_a (n : Nat) : (s.fetched n).a = s.a := rfl
@[simp] theorem State.fetched_scratch (n : Nat) : (s.fetched n).scratch = s.scratch := rfl
@[simp] theorem State.fetched_flags (n : Nat) : (s.fetched n).flags = s.flags := rfl
@[simp] theorem State.fetched_icb (n : Nat) : (s.fetched n).icb = s.icb := rfl
@[simp] theorem State.fetched_is (n : Nat) : (s.fetched n).is = s.is := rfl
@[simp] theorem State.fetched_p0 (n : Nat) : (s.fetched n).p0 = s.p0 + BitVec.ofNat addrBits n := rfl
@[simp] theorem State.fetched_p (n : Nat) : (s.fetched n).p = s.p := rfl
@[simp] theorem State.fetched_dc (n : Nat) : (s.fetched n).dc = s.dc := rfl
@[simp] theorem State.fetched_dc1 (n : Nat) : (s.fetched n).dc1 = s.dc1 := rfl
@[simp] theorem State.fetched_intInhibit (n : Nat) : (s.fetched n).intInhibit = s.intInhibit := rfl
@[simp] theorem State.fetched_mem (n : Nat) : (s.fetched n).mem = s.mem := rfl
@[simp] theorem State.fetched_platform (n : Nat) : (s.fetched n).platform = s.platform := rfl
@[simp] theorem State.fetched_portIn (n : Nat) : (s.fetched n).portIn = s.portIn := rfl
@[simp] theorem State.fetched_portReads (n : Nat) : (s.fetched n).portReads = s.portReads := rfl
@[simp] theorem State.fetched_requests (n : Nat) : (s.fetched n).requests = s.requests := rfl
@[simp] theorem State.fetched_events (n : Nat) : (s.fetched n).events = s.events := rfl

-- State.setResult
@[simp] theorem State.setResult_a (r : Byte × Flags) : (s.setResult r).a = r.1 := rfl
@[simp] theorem State.setResult_scratch (r : Byte × Flags) : (s.setResult r).scratch = s.scratch := rfl
@[simp] theorem State.setResult_flags (r : Byte × Flags) : (s.setResult r).flags = r.2 := rfl
@[simp] theorem State.setResult_icb (r : Byte × Flags) : (s.setResult r).icb = s.icb := rfl
@[simp] theorem State.setResult_is (r : Byte × Flags) : (s.setResult r).is = s.is := rfl
@[simp] theorem State.setResult_p0 (r : Byte × Flags) : (s.setResult r).p0 = s.p0 := rfl
@[simp] theorem State.setResult_p (r : Byte × Flags) : (s.setResult r).p = s.p := rfl
@[simp] theorem State.setResult_dc (r : Byte × Flags) : (s.setResult r).dc = s.dc := rfl
@[simp] theorem State.setResult_dc1 (r : Byte × Flags) : (s.setResult r).dc1 = s.dc1 := rfl
@[simp] theorem State.setResult_intInhibit (r : Byte × Flags) : (s.setResult r).intInhibit = s.intInhibit := rfl
@[simp] theorem State.setResult_mem (r : Byte × Flags) : (s.setResult r).mem = s.mem := rfl
@[simp] theorem State.setResult_platform (r : Byte × Flags) : (s.setResult r).platform = s.platform := rfl
@[simp] theorem State.setResult_portIn (r : Byte × Flags) : (s.setResult r).portIn = s.portIn := rfl
@[simp] theorem State.setResult_portReads (r : Byte × Flags) : (s.setResult r).portReads = s.portReads := rfl
@[simp] theorem State.setResult_requests (r : Byte × Flags) : (s.setResult r).requests = s.requests := rfl
@[simp] theorem State.setResult_events (r : Byte × Flags) : (s.setResult r).events = s.events := rfl

-- State.setLogic
@[simp] theorem State.setLogic_a (v : Byte) : (s.setLogic v).a = v := rfl
@[simp] theorem State.setLogic_scratch (v : Byte) : (s.setLogic v).scratch = s.scratch := rfl
@[simp] theorem State.setLogic_flags (v : Byte) : (s.setLogic v).flags = logic8 v := rfl
@[simp] theorem State.setLogic_icb (v : Byte) : (s.setLogic v).icb = s.icb := rfl
@[simp] theorem State.setLogic_is (v : Byte) : (s.setLogic v).is = s.is := rfl
@[simp] theorem State.setLogic_p0 (v : Byte) : (s.setLogic v).p0 = s.p0 := rfl
@[simp] theorem State.setLogic_p (v : Byte) : (s.setLogic v).p = s.p := rfl
@[simp] theorem State.setLogic_dc (v : Byte) : (s.setLogic v).dc = s.dc := rfl
@[simp] theorem State.setLogic_dc1 (v : Byte) : (s.setLogic v).dc1 = s.dc1 := rfl
@[simp] theorem State.setLogic_intInhibit (v : Byte) : (s.setLogic v).intInhibit = s.intInhibit := rfl
@[simp] theorem State.setLogic_mem (v : Byte) : (s.setLogic v).mem = s.mem := rfl
@[simp] theorem State.setLogic_platform (v : Byte) : (s.setLogic v).platform = s.platform := rfl
@[simp] theorem State.setLogic_portIn (v : Byte) : (s.setLogic v).portIn = s.portIn := rfl
@[simp] theorem State.setLogic_portReads (v : Byte) : (s.setLogic v).portReads = s.portReads := rfl
@[simp] theorem State.setLogic_requests (v : Byte) : (s.setLogic v).requests = s.requests := rfl
@[simp] theorem State.setLogic_events (v : Byte) : (s.setLogic v).events = s.events := rfl

-- State.bumpDC
@[simp] theorem State.bumpDC_a : (s.bumpDC).a = s.a := rfl
@[simp] theorem State.bumpDC_scratch : (s.bumpDC).scratch = s.scratch := rfl
@[simp] theorem State.bumpDC_flags : (s.bumpDC).flags = s.flags := rfl
@[simp] theorem State.bumpDC_icb : (s.bumpDC).icb = s.icb := rfl
@[simp] theorem State.bumpDC_is : (s.bumpDC).is = s.is := rfl
@[simp] theorem State.bumpDC_p0 : (s.bumpDC).p0 = s.p0 := rfl
@[simp] theorem State.bumpDC_p : (s.bumpDC).p = s.p := rfl
@[simp] theorem State.bumpDC_dc : (s.bumpDC).dc = s.dc + 1 := rfl
@[simp] theorem State.bumpDC_dc1 : (s.bumpDC).dc1 = s.dc1 := rfl
@[simp] theorem State.bumpDC_intInhibit : (s.bumpDC).intInhibit = s.intInhibit := rfl
@[simp] theorem State.bumpDC_mem : (s.bumpDC).mem = s.mem := rfl
@[simp] theorem State.bumpDC_platform : (s.bumpDC).platform = s.platform := rfl
@[simp] theorem State.bumpDC_portIn : (s.bumpDC).portIn = s.portIn := rfl
@[simp] theorem State.bumpDC_portReads : (s.bumpDC).portReads = s.portReads := rfl
@[simp] theorem State.bumpDC_requests : (s.bumpDC).requests = s.requests := rfl
@[simp] theorem State.bumpDC_events : (s.bumpDC).events = s.events := rfl

-- portRead
@[simp] theorem portRead_a (p : Byte) : (portRead s p).a = s.a := rfl
@[simp] theorem portRead_scratch (p : Byte) : (portRead s p).scratch = s.scratch := rfl
@[simp] theorem portRead_flags (p : Byte) : (portRead s p).flags = s.flags := rfl
@[simp] theorem portRead_icb (p : Byte) : (portRead s p).icb = s.icb := rfl
@[simp] theorem portRead_is (p : Byte) : (portRead s p).is = s.is := rfl
@[simp] theorem portRead_p0 (p : Byte) : (portRead s p).p0 = s.p0 := rfl
@[simp] theorem portRead_p (p : Byte) : (portRead s p).p = s.p := rfl
@[simp] theorem portRead_dc (p : Byte) : (portRead s p).dc = s.dc := rfl
@[simp] theorem portRead_dc1 (p : Byte) : (portRead s p).dc1 = s.dc1 := rfl
@[simp] theorem portRead_intInhibit (p : Byte) : (portRead s p).intInhibit = s.intInhibit := rfl
@[simp] theorem portRead_mem (p : Byte) : (portRead s p).mem = s.mem := rfl
@[simp] theorem portRead_platform (p : Byte) : (portRead s p).platform = s.platform := rfl
@[simp] theorem portRead_portIn (p : Byte) : (portRead s p).portIn = s.portIn.tail := rfl
@[simp] theorem portRead_portReads (p : Byte) : (portRead s p).portReads = s.portReads + 1 := rfl
@[simp] theorem portRead_requests (p : Byte) : (portRead s p).requests = s.requests := rfl
@[simp] theorem portRead_events (p : Byte) : (portRead s p).events = s.events ++ [.portRead p (portAnswer s p)] := rfl

-- portWrite
@[simp] theorem portWrite_a (p v : Byte) : (portWrite s p v).a = s.a := rfl
@[simp] theorem portWrite_scratch (p v : Byte) : (portWrite s p v).scratch = s.scratch := rfl
@[simp] theorem portWrite_flags (p v : Byte) : (portWrite s p v).flags = s.flags := rfl
@[simp] theorem portWrite_icb (p v : Byte) : (portWrite s p v).icb = s.icb := rfl
@[simp] theorem portWrite_is (p v : Byte) : (portWrite s p v).is = s.is := rfl
@[simp] theorem portWrite_p0 (p v : Byte) : (portWrite s p v).p0 = s.p0 := rfl
@[simp] theorem portWrite_p (p v : Byte) : (portWrite s p v).p = s.p := rfl
@[simp] theorem portWrite_dc (p v : Byte) : (portWrite s p v).dc = s.dc := rfl
@[simp] theorem portWrite_dc1 (p v : Byte) : (portWrite s p v).dc1 = s.dc1 := rfl
@[simp] theorem portWrite_intInhibit (p v : Byte) : (portWrite s p v).intInhibit = s.intInhibit := rfl
@[simp] theorem portWrite_mem (p v : Byte) : (portWrite s p v).mem = s.mem := rfl
@[simp] theorem portWrite_platform (p v : Byte) : (portWrite s p v).platform = s.platform := rfl
@[simp] theorem portWrite_portIn (p v : Byte) : (portWrite s p v).portIn = s.portIn := rfl
@[simp] theorem portWrite_portReads (p v : Byte) : (portWrite s p v).portReads = s.portReads := rfl
@[simp] theorem portWrite_requests (p v : Byte) : (portWrite s p v).requests = s.requests := rfl
@[simp] theorem portWrite_events (p v : Byte) : (portWrite s p v).events = s.events ++ [.portWrite p v] := rfl

-- inputFrom
@[simp] theorem inputFrom_a (p : Byte) : (inputFrom p s).a = portAnswer s p := rfl
@[simp] theorem inputFrom_scratch (p : Byte) : (inputFrom p s).scratch = s.scratch := rfl
@[simp] theorem inputFrom_flags (p : Byte) : (inputFrom p s).flags = logic8 (portAnswer s p) := rfl
@[simp] theorem inputFrom_icb (p : Byte) : (inputFrom p s).icb = s.icb := rfl
@[simp] theorem inputFrom_is (p : Byte) : (inputFrom p s).is = s.is := rfl
@[simp] theorem inputFrom_p0 (p : Byte) : (inputFrom p s).p0 = s.p0 := rfl
@[simp] theorem inputFrom_p (p : Byte) : (inputFrom p s).p = s.p := rfl
@[simp] theorem inputFrom_dc (p : Byte) : (inputFrom p s).dc = s.dc := rfl
@[simp] theorem inputFrom_dc1 (p : Byte) : (inputFrom p s).dc1 = s.dc1 := rfl
@[simp] theorem inputFrom_intInhibit (p : Byte) : (inputFrom p s).intInhibit = s.intInhibit := rfl
@[simp] theorem inputFrom_mem (p : Byte) : (inputFrom p s).mem = s.mem := rfl
@[simp] theorem inputFrom_platform (p : Byte) : (inputFrom p s).platform = s.platform := rfl
@[simp] theorem inputFrom_portIn (p : Byte) : (inputFrom p s).portIn = s.portIn.tail := rfl
@[simp] theorem inputFrom_portReads (p : Byte) : (inputFrom p s).portReads = s.portReads + 1 := rfl
@[simp] theorem inputFrom_requests (p : Byte) : (inputFrom p s).requests = s.requests := rfl
@[simp] theorem inputFrom_events (p : Byte) : (inputFrom p s).events = s.events ++ [.portRead p (portAnswer s p)] := rfl

-- State.saveP0AndGo
@[simp] theorem State.saveP0AndGo_a (v : Addr) : (s.saveP0AndGo v).a = s.a := rfl
@[simp] theorem State.saveP0AndGo_scratch (v : Addr) : (s.saveP0AndGo v).scratch = s.scratch := rfl
@[simp] theorem State.saveP0AndGo_flags (v : Addr) : (s.saveP0AndGo v).flags = s.flags := rfl
@[simp] theorem State.saveP0AndGo_icb (v : Addr) : (s.saveP0AndGo v).icb = s.icb := rfl
@[simp] theorem State.saveP0AndGo_is (v : Addr) : (s.saveP0AndGo v).is = s.is := rfl
@[simp] theorem State.saveP0AndGo_p0 (v : Addr) : (s.saveP0AndGo v).p0 = v := rfl
@[simp] theorem State.saveP0AndGo_p (v : Addr) : (s.saveP0AndGo v).p = s.p0 := rfl
@[simp] theorem State.saveP0AndGo_dc (v : Addr) : (s.saveP0AndGo v).dc = s.dc := rfl
@[simp] theorem State.saveP0AndGo_dc1 (v : Addr) : (s.saveP0AndGo v).dc1 = s.dc1 := rfl
@[simp] theorem State.saveP0AndGo_intInhibit (v : Addr) : (s.saveP0AndGo v).intInhibit = s.intInhibit := rfl
@[simp] theorem State.saveP0AndGo_mem (v : Addr) : (s.saveP0AndGo v).mem = s.mem := rfl
@[simp] theorem State.saveP0AndGo_platform (v : Addr) : (s.saveP0AndGo v).platform = s.platform := rfl
@[simp] theorem State.saveP0AndGo_portIn (v : Addr) : (s.saveP0AndGo v).portIn = s.portIn := rfl
@[simp] theorem State.saveP0AndGo_portReads (v : Addr) : (s.saveP0AndGo v).portReads = s.portReads := rfl
@[simp] theorem State.saveP0AndGo_requests (v : Addr) : (s.saveP0AndGo v).requests = s.requests := rfl
@[simp] theorem State.saveP0AndGo_events (v : Addr) : (s.saveP0AndGo v).events = s.events := rfl

-- State.returnViaP
@[simp] theorem State.returnViaP_a : (s.returnViaP).a = s.a := rfl
@[simp] theorem State.returnViaP_scratch : (s.returnViaP).scratch = s.scratch := rfl
@[simp] theorem State.returnViaP_flags : (s.returnViaP).flags = s.flags := rfl
@[simp] theorem State.returnViaP_icb : (s.returnViaP).icb = s.icb := rfl
@[simp] theorem State.returnViaP_is : (s.returnViaP).is = s.is := rfl
@[simp] theorem State.returnViaP_p0 : (s.returnViaP).p0 = s.p := rfl
@[simp] theorem State.returnViaP_p : (s.returnViaP).p = s.p := rfl
@[simp] theorem State.returnViaP_dc : (s.returnViaP).dc = s.dc := rfl
@[simp] theorem State.returnViaP_dc1 : (s.returnViaP).dc1 = s.dc1 := rfl
@[simp] theorem State.returnViaP_intInhibit : (s.returnViaP).intInhibit = s.intInhibit := rfl
@[simp] theorem State.returnViaP_mem : (s.returnViaP).mem = s.mem := rfl
@[simp] theorem State.returnViaP_platform : (s.returnViaP).platform = s.platform := rfl
@[simp] theorem State.returnViaP_portIn : (s.returnViaP).portIn = s.portIn := rfl
@[simp] theorem State.returnViaP_portReads : (s.returnViaP).portReads = s.portReads := rfl
@[simp] theorem State.returnViaP_requests : (s.returnViaP).requests = s.requests := rfl
@[simp] theorem State.returnViaP_events : (s.returnViaP).events = s.events := rfl

-- State.passBoundary
@[simp] theorem State.passBoundary_a : (s.passBoundary).a = s.a := rfl
@[simp] theorem State.passBoundary_scratch : (s.passBoundary).scratch = s.scratch := rfl
@[simp] theorem State.passBoundary_flags : (s.passBoundary).flags = s.flags := rfl
@[simp] theorem State.passBoundary_icb : (s.passBoundary).icb = s.icb := rfl
@[simp] theorem State.passBoundary_is : (s.passBoundary).is = s.is := rfl
@[simp] theorem State.passBoundary_p0 : (s.passBoundary).p0 = s.p0 := rfl
@[simp] theorem State.passBoundary_p : (s.passBoundary).p = s.p := rfl
@[simp] theorem State.passBoundary_dc : (s.passBoundary).dc = s.dc := rfl
@[simp] theorem State.passBoundary_dc1 : (s.passBoundary).dc1 = s.dc1 := rfl
@[simp] theorem State.passBoundary_intInhibit : (s.passBoundary).intInhibit = s.intInhibit := rfl
@[simp] theorem State.passBoundary_mem : (s.passBoundary).mem = s.mem := rfl
@[simp] theorem State.passBoundary_platform : (s.passBoundary).platform = s.platform := rfl
@[simp] theorem State.passBoundary_portIn : (s.passBoundary).portIn = s.portIn := rfl
@[simp] theorem State.passBoundary_portReads : (s.passBoundary).portReads = s.portReads := rfl
@[simp] theorem State.passBoundary_requests : (s.passBoundary).requests = s.requests.tail := rfl
@[simp] theorem State.passBoundary_events : (s.passBoundary).events = s.events := rfl

-- enterInterrupt
@[simp] theorem enterInterrupt_a (i : IntSource) (v : Addr) : (enterInterrupt i v s).a = s.a := rfl
@[simp] theorem enterInterrupt_scratch (i : IntSource) (v : Addr) : (enterInterrupt i v s).scratch = s.scratch := rfl
@[simp] theorem enterInterrupt_flags (i : IntSource) (v : Addr) : (enterInterrupt i v s).flags = s.flags := rfl
@[simp] theorem enterInterrupt_icb (i : IntSource) (v : Addr) : (enterInterrupt i v s).icb = false := rfl
@[simp] theorem enterInterrupt_is (i : IntSource) (v : Addr) : (enterInterrupt i v s).is = s.is := rfl
@[simp] theorem enterInterrupt_p0 (i : IntSource) (v : Addr) : (enterInterrupt i v s).p0 = v := rfl
@[simp] theorem enterInterrupt_p (i : IntSource) (v : Addr) : (enterInterrupt i v s).p = s.p0 := rfl
@[simp] theorem enterInterrupt_dc (i : IntSource) (v : Addr) : (enterInterrupt i v s).dc = s.dc := rfl
@[simp] theorem enterInterrupt_dc1 (i : IntSource) (v : Addr) : (enterInterrupt i v s).dc1 = s.dc1 := rfl
@[simp] theorem enterInterrupt_intInhibit (i : IntSource) (v : Addr) : (enterInterrupt i v s).intInhibit = false := rfl
@[simp] theorem enterInterrupt_mem (i : IntSource) (v : Addr) : (enterInterrupt i v s).mem = s.mem := rfl
@[simp] theorem enterInterrupt_platform (i : IntSource) (v : Addr) : (enterInterrupt i v s).platform = s.platform := rfl
@[simp] theorem enterInterrupt_portIn (i : IntSource) (v : Addr) : (enterInterrupt i v s).portIn = s.portIn := rfl
@[simp] theorem enterInterrupt_portReads (i : IntSource) (v : Addr) : (enterInterrupt i v s).portReads = s.portReads := rfl
@[simp] theorem enterInterrupt_requests (i : IntSource) (v : Addr) : (enterInterrupt i v s).requests = s.requests := rfl
@[simp] theorem enterInterrupt_events (i : IntSource) (v : Addr) : (enterInterrupt i v s).events = s.events ++ [.interrupt i] := rfl

end

end Sys2Proof.Machine
end

