-- ==== Sys2Proof/Laws/Ops.lean ====
section
/-! SUPPORT. For each shared operation one lemma that says once everything it can do. -/

namespace Sys2Proof.Machine

section
variable {s t : State}

/-- A register reads the value just written to it. -/
@[simp] theorem reg_setReg_same (s : State) (n : ScratchIdx) (v : Byte) : (s.setReg n v).reg n = v := by
  simp [State.reg, State.setReg]

/-- Another register reads as before. -/
theorem reg_setReg_other (s : State) {n k : ScratchIdx} (v : Byte) (h : k ≠ n) : (s.setReg n v).reg k = s.reg k := by
  have : n.toNat ≠ k.toNat := fun e => h (BitVec.eq_of_toNat_eq e.symm)
  simp [State.reg, State.setReg, this]

/-- A register read depends on the scratchpad alone. -/
theorem reg_congr (h : t.scratch = s.scratch) (n : ScratchIdx) : t.reg n = s.reg n := by
  simp [State.reg, h]

/-- The upper register of a pair after the pair is written. -/
theorem reg_setRegPair_upper (s : State) {u l : ScratchIdx} (v : Addr) (h : u ≠ l) :
    (s.setRegPair u l v).reg u = upperByte (wordOf v) := by
  simp [State.setRegPair, reg_setReg_other _ _ h]

/-- The lower register of a pair after the pair is written. -/
theorem reg_setRegPair_lower (s : State) (u l : ScratchIdx) (v : Addr) :
    (s.setRegPair u l v).reg l = lowerByte (wordOf v) := by
  simp [State.setRegPair]

/-- Any other register after a pair is written. -/
theorem reg_setRegPair_other (s : State) {u l k : ScratchIdx} (v : Addr) (hu : k ≠ u) (hl : k ≠ l) :
    (s.setRegPair u l v).reg k = s.reg k := by
  simp [State.setRegPair, reg_setReg_other _ _ hl, reg_setReg_other _ _ hu]

/-- The end of an instruction gives exactly this next state. -/
theorem ends_next {p : Bool} (h : s.ends p = .next t) : t = { s with intInhibit := p } := by
  simpa [State.ends] using h.symm

/-- A read of one byte depends on the memory and the map alone. -/
theorem readMem_congr (hm : t.mem = s.mem) (hp : t.platform = s.platform) (a : Addr) : readMem t a = readMem s a := by
  simp [readMem, hm, hp]

/-- A store that is done was to RAM and changed the memory alone. -/
theorem writeMem_ok {a : Addr} {v : Byte} (h : writeMem s a v = .ok t) :
    kindAt s.platform a = .ram ∧ t = { s with mem := Memory.write s.mem a.toNat v } := by
  unfold writeMem at h
  split at h
  · rename_i hk
    exact ⟨hk, (Except.ok.inj h).symm⟩
  · cases h
  · cases h

/-- A store that is refused was not to RAM, and the refusal names the address. -/
theorem writeMem_error {a : Addr} {v : Byte} {e : Refusal} (h : writeMem s a v = .error e) :
    kindAt s.platform a ≠ .ram ∧ e = .storeNotRam a := by
  unfold writeMem at h
  split at h
  · cases h
  · rename_i hk
    exact ⟨by simp [hk], (Except.error.inj h).symm⟩
  · rename_i hk
    exact ⟨by simp [hk], (Except.error.inj h).symm⟩

/-- An instruction with a memory operand that completes read a byte at DC, moved DC on and had its effect. -/
theorem withMemOperand_next {f : State → Byte → State} (h : withMemOperand s f = .next t) :
    ∃ m, readMem s s.dc = .ok m ∧ t = { f (s.fetched 1).bumpDC m with intInhibit := false } := by
  unfold withMemOperand at h
  split at h
  · rename_i m hm
    exact ⟨m, hm, ends_next h⟩
  · cases h

/-- With a byte at DC an instruction with a memory operand completes. -/
theorem withMemOperand_of_ok {f : State → Byte → State} {m : Byte} (h : readMem s s.dc = .ok m) :
    withMemOperand s f = .next { f (s.fetched 1).bumpDC m with intInhibit := false } := by
  simp [withMemOperand, h, State.ends]

/-- Without a byte at DC an instruction with a memory operand stops with the read's fault. -/
theorem withMemOperand_of_error {f : State → Byte → State} {e : Fault} (h : readMem s s.dc = .error e) :
    withMemOperand s f = .fault e := by
  simp [withMemOperand, h]

/-- A store to RAM is done. -/
theorem writeMem_of_ram {a : Addr} {v : Byte} (h : kindAt s.platform a = .ram) :
    writeMem s a v = .ok { s with mem := Memory.write s.mem a.toNat v } := by
  simp [writeMem, h]

/-- A relative branch goes to its target or past its two bytes, and changes nothing else. -/
theorem branchIf_next {b : Bool} {d : Byte} (h : branchIf b d s = .next t) :
    t = { s with p0 := if b then branchTarget (s.p0 + 2) d else s.p0 + 2, intInhibit := false } := by
  exact ends_next h

/-- An accepted interrupt found ICB set, no hold-off, and its source requesting. -/
theorem acceptedInterrupt_some {e : IntSource × Addr} (h : acceptedInterrupt s = some e) :
    s.icb = true ∧ s.intInhibit = false ∧ e ∈ s.platform.intVector ∧ e.1 ∈ presented s := by
  unfold acceptedInterrupt at h
  split at h
  · rename_i hc
    simp only [Bool.and_eq_true, Bool.not_eq_true'] at hc
    refine ⟨hc.1, hc.2, List.mem_of_find?_eq_some h, ?_⟩
    have := List.find?_some h
    simpa using this
  · cases h

/-- With the hold-off set no interrupt is accepted. -/
theorem acceptedInterrupt_of_intInhibit (h : s.intInhibit = true) : acceptedInterrupt s = none := by
  simp [acceptedInterrupt, h]

/-- With ICB clear no interrupt is accepted. -/
theorem acceptedInterrupt_of_icb (h : s.icb = false) : acceptedInterrupt s = none := by
  simp [acceptedInterrupt, h]

/-- A step that completes took an interrupt, or fetched an instruction and executed it. -/
theorem step_next (h : step s = .next t) :
    (∃ source vector, acceptedInterrupt s = some (source, vector) ∧ t = enterInterrupt source vector s.passBoundary) ∨
    (acceptedInterrupt s = none ∧ ∃ i, fetchInstr s = .ok i ∧ exec i s.passBoundary = .next t) := by
  unfold step at h
  split at h
  · rename_i source vector ha
    exact .inl ⟨source, vector, ha, (Host.Outcome.next.inj h).symm⟩
  · rename_i ha
    split at h
    · cases h
    · rename_i i hi
      exact .inr ⟨ha, i, hi, h⟩

/-- An instruction that was fetched is what its bytes decode to, the first of them at P0. -/
theorem fetchInstr_ok {i : Instr} (h : fetchInstr s = .ok i) :
    ∃ op b1 b2, readMem s s.p0 = .ok op ∧ i = decodeBytes s.platform.lisEncodingAsPrinted op b1 b2 := by
  unfold fetchInstr at h
  split at h
  · cases h
  · rename_i op hop
    split at h
    · cases h
    · rename_i b1 _
      split at h
      · cases h
      · rename_i b2 _
        exact ⟨op, b1, b2, hop, (Except.ok.inj h).symm⟩

end

end Sys2Proof.Machine
end

