-- ==== Sys2Proof/Laws/PerInstr.lean ====
section
/-! SUPPORT. The families of LAWS.json: statements made per instruction, one lemma per constructor of `Instr`. -/

namespace Sys2Proof.Laws

/-- EncodedLength: an instruction is encoded in as many bytes as the length R91 gives it. -/
def EncodedLength.Statement (i : Instr) : Prop := ∀ sw : Bool, (encode sw i).length = i.length

theorem EncodedLength.lnk : EncodedLength.Statement (.lnk) := fun _ => rfl
theorem EncodedLength.ai (ii : Byte) : EncodedLength.Statement (.ai ii) := fun _ => rfl
theorem EncodedLength.adc : EncodedLength.Statement (.adc) := fun _ => rfl
theorem EncodedLength.am : EncodedLength.Statement (.am) := fun _ => rfl
theorem EncodedLength.amd : EncodedLength.Statement (.amd) := fun _ => rfl
theorem EncodedLength.asR (r : Scr) : EncodedLength.Statement (.asR r) := fun _ => rfl
theorem EncodedLength.asdR (r : Scr) : EncodedLength.Statement (.asdR r) := fun _ => rfl
theorem EncodedLength.ni (ii : Byte) : EncodedLength.Statement (.ni ii) := fun _ => rfl
theorem EncodedLength.nm : EncodedLength.Statement (.nm) := fun _ => rfl
theorem EncodedLength.nsR (r : Scr) : EncodedLength.Statement (.nsR r) := fun _ => rfl
theorem EncodedLength.ci (ii : Byte) : EncodedLength.Statement (.ci ii) := fun _ => rfl
theorem EncodedLength.cm : EncodedLength.Statement (.cm) := fun _ => rfl
theorem EncodedLength.com : EncodedLength.Statement (.com) := fun _ => rfl
theorem EncodedLength.dsR (r : Scr) : EncodedLength.Statement (.dsR r) := fun _ => rfl
theorem EncodedLength.xi (ii : Byte) : EncodedLength.Statement (.xi ii) := fun _ => rfl
theorem EncodedLength.xm : EncodedLength.Statement (.xm) := fun _ => rfl
theorem EncodedLength.xsR (r : Scr) : EncodedLength.Statement (.xsR r) := fun _ => rfl
theorem EncodedLength.inc : EncodedLength.Statement (.inc) := fun _ => rfl
theorem EncodedLength.oi (ii : Byte) : EncodedLength.Statement (.oi ii) := fun _ => rfl
theorem EncodedLength.om : EncodedLength.Statement (.om) := fun _ => rfl
theorem EncodedLength.sl1 : EncodedLength.Statement (.sl1) := fun _ => rfl
theorem EncodedLength.sl4 : EncodedLength.Statement (.sl4) := fun _ => rfl
theorem EncodedLength.sr1 : EncodedLength.Statement (.sr1) := fun _ => rfl
theorem EncodedLength.sr4 : EncodedLength.Statement (.sr4) := fun _ => rfl
theorem EncodedLength.br (aa : Byte) : EncodedLength.Statement (.br aa) := fun _ => rfl
theorem EncodedLength.bf (t : BitVec 4) (aa : Byte) : EncodedLength.Statement (.bf t aa) := fun _ => rfl
theorem EncodedLength.bm (aa : Byte) : EncodedLength.Statement (.bm aa) := fun _ => rfl
theorem EncodedLength.bnc (aa : Byte) : EncodedLength.Statement (.bnc aa) := fun _ => rfl
theorem EncodedLength.bno (aa : Byte) : EncodedLength.Statement (.bno aa) := fun _ => rfl
theorem EncodedLength.bnz (aa : Byte) : EncodedLength.Statement (.bnz aa) := fun _ => rfl
theorem EncodedLength.br7 (aa : Byte) : EncodedLength.Statement (.br7 aa) := fun _ => rfl
theorem EncodedLength.bc (aa : Byte) : EncodedLength.Statement (.bc aa) := fun _ => rfl
theorem EncodedLength.bp (aa : Byte) : EncodedLength.Statement (.bp aa) := fun _ => rfl
theorem EncodedLength.bt (t : BitVec 3) (aa : Byte) : EncodedLength.Statement (.bt t aa) := fun _ => rfl
theorem EncodedLength.bz (aa : Byte) : EncodedLength.Statement (.bz aa) := fun _ => rfl
theorem EncodedLength.jmp (aaaa : Word16) : EncodedLength.Statement (.jmp aaaa) := fun _ => rfl
theorem EncodedLength.lrP0Q : EncodedLength.Statement (.lrP0Q) := fun _ => rfl
theorem EncodedLength.pi (iiii : Word16) : EncodedLength.Statement (.pi iiii) := fun _ => rfl
theorem EncodedLength.pk : EncodedLength.Statement (.pk) := fun _ => rfl
theorem EncodedLength.pop : EncodedLength.Statement (.pop) := fun _ => rfl
theorem EncodedLength.clr : EncodedLength.Statement (.clr) := fun _ => rfl
theorem EncodedLength.lrAKU : EncodedLength.Statement (.lrAKU) := fun _ => rfl
theorem EncodedLength.lrAKL : EncodedLength.Statement (.lrAKL) := fun _ => rfl
theorem EncodedLength.lrKUA : EncodedLength.Statement (.lrKUA) := fun _ => rfl
theorem EncodedLength.lrKLA : EncodedLength.Statement (.lrKLA) := fun _ => rfl
theorem EncodedLength.lrAQU : EncodedLength.Statement (.lrAQU) := fun _ => rfl
theorem EncodedLength.lrAQL : EncodedLength.Statement (.lrAQL) := fun _ => rfl
theorem EncodedLength.lrQUA : EncodedLength.Statement (.lrQUA) := fun _ => rfl
theorem EncodedLength.lrQLA : EncodedLength.Statement (.lrQLA) := fun _ => rfl
theorem EncodedLength.lrAR (r : Scr) : EncodedLength.Statement (.lrAR r) := fun _ => rfl
theorem EncodedLength.lrRA (r : Scr) : EncodedLength.Statement (.lrRA r) := fun _ => rfl
theorem EncodedLength.li (ii : Byte) : EncodedLength.Statement (.li ii) := fun _ => rfl
theorem EncodedLength.lis (i : BitVec 4) : EncodedLength.Statement (.lis i) := fun _ => rfl
theorem EncodedLength.lm : EncodedLength.Statement (.lm) := fun _ => rfl
theorem EncodedLength.st : EncodedLength.Statement (.st) := fun _ => rfl
theorem EncodedLength.dci (iiii : Word16) : EncodedLength.Statement (.dci iiii) := fun _ => rfl
theorem EncodedLength.xdc : EncodedLength.Statement (.xdc) := fun _ => rfl
theorem EncodedLength.lrDCQ : EncodedLength.Statement (.lrDCQ) := fun _ => rfl
theorem EncodedLength.lrQDC : EncodedLength.Statement (.lrQDC) := fun _ => rfl
theorem EncodedLength.lrDCH : EncodedLength.Statement (.lrDCH) := fun _ => rfl
theorem EncodedLength.lrHDC : EncodedLength.Statement (.lrHDC) := fun _ => rfl
theorem EncodedLength.lisl (bbb : BitVec 3) : EncodedLength.Statement (.lisl bbb) := fun _ => rfl
theorem EncodedLength.lisu (bbb : BitVec 3) : EncodedLength.Statement (.lisu bbb) := fun _ => rfl
theorem EncodedLength.lrISA : EncodedLength.Statement (.lrISA) := fun _ => rfl
theorem EncodedLength.lrAIS : EncodedLength.Statement (.lrAIS) := fun _ => rfl
theorem EncodedLength.lrPK : EncodedLength.Statement (.lrPK) := fun _ => rfl
theorem EncodedLength.lrKP : EncodedLength.Statement (.lrKP) := fun _ => rfl
theorem EncodedLength.inP (pp : Byte) : EncodedLength.Statement (.inP pp) := fun _ => rfl
theorem EncodedLength.insP (p : BitVec 4) : EncodedLength.Statement (.insP p) := fun _ => rfl
theorem EncodedLength.outP (pp : Byte) : EncodedLength.Statement (.outP pp) := fun _ => rfl
theorem EncodedLength.outsP (p : BitVec 4) : EncodedLength.Statement (.outsP p) := fun _ => rfl
theorem EncodedLength.di : EncodedLength.Statement (.di) := fun _ => rfl
theorem EncodedLength.ei : EncodedLength.Statement (.ei) := fun _ => rfl
theorem EncodedLength.lrWJ : EncodedLength.Statement (.lrWJ) := fun _ => rfl
theorem EncodedLength.lrJW : EncodedLength.Statement (.lrJW) := fun _ => rfl
theorem EncodedLength.nop : EncodedLength.Statement (.nop) := fun _ => rfl
theorem EncodedLength.undefined (op : Byte) : EncodedLength.Statement (.undefined op) := fun _ => rfl

end Sys2Proof.Laws
end

