-- ==== Sys2Proof/Machine/Assembly.lean ====
section
/-! DEFINITION. The assembler spelling of an instruction (spec/30_encoding.md R105), destination first. Nothing the
machine does depends on it. Where the source gives no spelling (hexadecimal constants, the operands C, D, E, the comma
after `t`) the notation is D25's (PRESUMED by the spec, log 33); a branch is written with its displacement byte. -/

namespace Sys2Proof.Machine

/-- One hexadecimal digit. -/
def hexDigit (n : Nat) : String := String.singleton (Nat.digitChar n).toUpper

/-- A hexadecimal constant of `digits` digits in the notation H'..' (D25). -/
def hexConst (digits n : Nat) : String :=
  "H'" ++ String.join ((List.range digits).reverse.map fun k => hexDigit (n / 16 ^ k % 16)) ++ "'"

/-- A scratchpad operand (R98, R105): a number, or S, I, D for the operands C, D, E (D25). -/
def scrText : Scr → String
  | .direct n => hexDigit n.val
  | .viaIS => "S"
  | .viaISInc => "I"
  | .viaISDec => "D"

/-- The text of an instruction (R105, R106). A first byte that selects no instruction has no mnemonic. -/
def assembly (i : Instr) : Option String :=
  let imm8 := fun (name : String) (v : Byte) => some (name ++ " " ++ hexConst 2 v.toNat)
  let imm16 := fun (name : String) (v : Word16) => some (name ++ " " ++ hexConst 4 v.toNat)
  let digit := fun (name : String) (n : Nat) => some (name ++ " " ++ hexDigit n)
  let scr := fun (name : String) (r : Scr) => some (name ++ " " ++ scrText r)
  let masked := fun (name : String) (t : Nat) (d : Byte) =>
    some (name ++ " " ++ hexDigit t ++ "," ++ hexConst 2 d.toNat)
  match i with
  | .lnk => some "LNK"
  | .ai ii => imm8 "AI" ii
  | .adc => some "ADC"
  | .am => some "AM"
  | .amd => some "AMD"
  | .asR r => scr "AS" r
  | .asdR r => scr "ASD" r
  | .ni ii => imm8 "NI" ii
  | .nm => some "NM"
  | .nsR r => scr "NS" r
  | .ci ii => imm8 "CI" ii
  | .cm => some "CM"
  | .com => some "COM"
  | .dsR r => scr "DS" r
  | .xi ii => imm8 "XI" ii
  | .xm => some "XM"
  | .xsR r => scr "XS" r
  | .inc => some "INC"
  | .oi ii => imm8 "OI" ii
  | .om => some "OM"
  | .sl1 => some "SL 1"
  | .sl4 => some "SL 4"
  | .sr1 => some "SR 1"
  | .sr4 => some "SR 4"
  | .br aa => imm8 "BR" aa
  | .bf t aa => masked "BF" t.toNat aa
  | .bm aa => imm8 "BM" aa
  | .bnc aa => imm8 "BNC" aa
  | .bno aa => imm8 "BNO" aa
  | .bnz aa => imm8 "BNZ" aa
  | .br7 aa => imm8 "BR7" aa
  | .bc aa => imm8 "BC" aa
  | .bp aa => imm8 "BP" aa
  | .bt t aa => masked "BT" t.toNat aa
  | .bz aa => imm8 "BZ" aa
  | .jmp aaaa => imm16 "JMP" aaaa
  | .lrP0Q => some "LR P0,Q"
  | .pi iiii => imm16 "PI" iiii
  | .pk => some "PK"
  | .pop => some "POP"
  | .clr => some "CLR"
  | .lrAKU => some "LR A,KU"
  | .lrAKL => some "LR A,KL"
  | .lrKUA => some "LR KU,A"
  | .lrKLA => some "LR KL,A"
  | .lrAQU => some "LR A,QU"
  | .lrAQL => some "LR A,QL"
  | .lrQUA => some "LR QU,A"
  | .lrQLA => some "LR QL,A"
  | .lrAR r => some ("LR A," ++ scrText r)
  | .lrRA r => some ("LR " ++ scrText r ++ ",A")
  | .li ii => imm8 "LI" ii
  | .lis i => digit "LIS" i.toNat
  | .lm => some "LM"
  | .st => some "ST"
  | .dci iiii => imm16 "DCI" iiii
  | .xdc => some "XDC"
  | .lrDCQ => some "LR DC,Q"
  | .lrQDC => some "LR Q,DC"
  | .lrDCH => some "LR DC,H"
  | .lrHDC => some "LR H,DC"
  | .lisl bbb => digit "LISL" bbb.toNat
  | .lisu bbb => digit "LISU" bbb.toNat
  | .lrISA => some "LR IS,A"
  | .lrAIS => some "LR A,IS"
  | .lrPK => some "LR P,K"
  | .lrKP => some "LR K,P"
  | .inP pp => imm8 "IN" pp
  | .insP p => digit "INS" p.toNat
  | .outP pp => imm8 "OUT" pp
  | .outsP p => digit "OUTS" p.toNat
  | .di => some "DI"
  | .ei => some "EI"
  | .lrWJ => some "LR W,J"
  | .lrJW => some "LR J,W"
  | .nop => some "NOP"
  | .undefined _ => none

end Sys2Proof.Machine
end

