-- ==== Sys2Proof/Tests/Slice0.lean ====
section
/-! SUPPORT. The model's own tests: what WellFormed refuses, the word of every constructor written out from
spec/30_encoding.md R101 and R92 to R97, single steps with the results of spec/95_test_vectors.md, and for every
obligation with hypotheses a concrete state and operands that meet them (`witness_<obligation>`). -/

namespace Sys2Proof.Tests

open Sys2Proof Sys2Proof.Machine

-- WellFormed refuses

theorem test_wellFormed_refuses_named_bt : [1, 2, 4].all (fun t => !(Instr.bt t 0x10).wellFormed) = true := by decide
theorem test_wellFormed_refuses_named_bf : [0, 1, 2, 4, 8].all (fun t => !(Instr.bf t 0x10).wellFormed) = true := by
  decide
theorem test_wellFormed_refuses_lis_zero : (Instr.lis 0).wellFormed = false := by decide
theorem test_wellFormed_refuses_defined_byte : (Instr.undefined 0x2B).wellFormed = false := by decide

-- Decoding: the table's numbering, first byte least significant

/-- Every word of the list decodes to its instruction. -/
def decodeAll (rows : List (Nat × Instr)) : Bool := rows.all fun e => decide (decodeTableWord 24 e.1 = some e.2)

theorem test_decode_arithmetic : decodeAll
    [(0x19, .lnk), (0x3424, .ai 0x34), (0x8E, .adc), (0x88, .am), (0x89, .amd), (0xC3, .asR (.direct 3)),
     (0xD1, .asdR (.direct 1)), (0x1825, .ci 0x18), (0x8D, .cm), (0x3E, .dsR .viaISDec), (0x1F, .inc)] = true := by
  decide
theorem test_decode_logical : decodeAll
    [(0x0F21, .ni 0x0F), (0x8A, .nm), (0xFC, .nsR .viaIS), (0x18, .com), (0xFF23, .xi 0xFF), (0x8C, .xm),
     (0xEB, .xsR (.direct 11)), (0x0022, .oi 0), (0x8B, .om), (0x13, .sl1), (0x15, .sl4), (0x12, .sr1),
     (0x14, .sr4)] = true := by decide
theorem test_decode_branch : decodeAll
    [(0xFF90, .br 0xFF), (0x109E, .bf 0xE 0x10), (0x1091, .bm 0x10), (0x0592, .bnc 0x05), (0x7F98, .bno 0x7F),
     (0xFB94, .bnz 0xFB), (0xFD8F, .br7 0xFD), (0x1082, .bc 0x10), (0x1081, .bp 0x10), (0x1086, .bt 6 0x10),
     (0x1080, .bt 0 0x10), (0x0284, .bz 0x02)] = true := by decide
theorem test_decode_jump : decodeAll
    [(0x800129, .jmp 0x0180), (0x0D, .lrP0Q), (0x100028, .pi 0x0010), (0x0C, .pk), (0x1C, .pop)] = true := by decide
theorem test_decode_accumulator : decodeAll
    [(0x70, .clr), (0x00, .lrAKU), (0x01, .lrAKL), (0x04, .lrKUA), (0x05, .lrKLA), (0x02, .lrAQU), (0x03, .lrAQL),
     (0x06, .lrQUA), (0x07, .lrQLA), (0x4D, .lrAR .viaISInc), (0x5B, .lrRA (.direct 11)), (0x7F20, .li 0x7F),
     (0x74, .lis 4), (0x16, .lm), (0x17, .st)] = true := by decide
theorem test_decode_address : decodeAll
    [(0x34122A, .dci 0x1234), (0x2C, .xdc), (0x0F, .lrDCQ), (0x0E, .lrQDC), (0x10, .lrDCH), (0x11, .lrHDC),
     (0x62, .lisl 2), (0x6A, .lisu 2), (0x0B, .lrISA), (0x0A, .lrAIS), (0x09, .lrPK), (0x08, .lrKP)] = true := by
  decide
theorem test_decode_io_and_control : decodeAll
    [(0x0526, .inP 5), (0xAF, .insP 15), (0x0427, .outP 4), (0xB4, .outsP 4), (0x1A, .di), (0x1B, .ei), (0x1D, .lrWJ),
     (0x1E, .lrJW), (0x2B, .nop)] = true := by decide
theorem test_decode_undefined :
    undefinedOpcodes.all (fun op => decide (decodeTableWord 8 op.toNat = some (.undefined op))) = true := by decide
/-- R94: with the switch off the two halves of row 6 change places. -/
theorem test_decode_lisl_reversed : decodeBytes false 0x62 0 0 = .lisu 2 ∧ decodeBytes false 0x6A 0 0 = .lisl 2 := by
  decide
/-- A list that ends inside an instruction is rejected by name. -/
theorem test_decode_truncated : decode true [0x29, 0x01] = .error .truncated := rfl

/-- R105 and D25. -/
theorem test_assembly : assembly (.jmp 0x01AF) = some "JMP H'01AF'" ∧ assembly (.lrRA .viaISInc) = some "LR I,A" ∧
    assembly (.bf 14 0x10) = some "BF E,H'10'" := by decide

-- Single steps

/-- The state `s` with the bytes `code` listed from P0 = 0x0100 on, in memory that lists nothing else. -/
def at0100 (code : List Byte) (s : State) : State :=
  { s with p0 := 0x0100, mem := code.zipIdx.map fun e => (0x0100 + e.2, e.1) }

/-- One step of a state, the fields `f` looks at; none where it stops. -/
def look {α : Type} (f : State → α) (s : State) : Option α :=
  match step s with
  | .next t => some (f t)
  | _ => none

/-- Flags written as R26's table writes them, O Z C S. -/
def ozcs (s : State) : List Nat := [s.flags.o.toNat, s.flags.z.toNat, s.flags.c.toNat, s.flags.s.toNat]

/-- A, then the flags. -/
def aOZCS (s : State) : Byte × List Nat := (s.a, ozcs s)

/-- A reset state with A. -/
def withA (v : Byte) : State := { State.reset with a := v }

/-- A reset state with a register and A. -/
def withReg (n : ScratchIdx) (v a : Byte) : State := (withA a).setReg n v

/-- The reset state with flags O Z C S. -/
def withFlags (o z c s : Bool) : State := { State.reset with flags := ⟨o, z, c, s⟩ }

/-- The code in memory at 0100, a data byte at 0x0200, DC there. -/
def withData (code : List Byte) (v : Byte) (s : State) : State :=
  let t := at0100 code s
  { t with dc := 0x0200, mem := t.mem ++ [(0x0200, v)] }

-- expected results from spec/95_test_vectors.md section 2.1 to 2.6
theorem test_ai : look aOZCS (at0100 [0x24, 0x34] (withA 0x12)) = some (0x46, [0, 0, 0, 1]) := by decide
theorem test_ai_overflow : look aOZCS (at0100 [0x24, 0xFF] (withA 0x80)) = some (0x7F, [1, 0, 1, 1]) := by decide
theorem test_inc : look aOZCS (at0100 [0x1F] (withA 0x7F)) = some (0x80, [1, 0, 0, 0]) := by decide
theorem test_lnk : look aOZCS (at0100 [0x19] { withA 0xFF with flags := ⟨false, false, true, false⟩ })
    = some (0x00, [0, 1, 1, 1]) := by decide
theorem test_as : look aOZCS (at0100 [0xC3] (withReg 3 0xFF 0x01)) = some (0x00, [0, 1, 1, 1]) := by decide
theorem test_am : look (fun s => (aOZCS s, s.dc)) (withData [0x88] 0xF0 (withA 0x60))
    = some ((0x50, [0, 0, 1, 1]), 0x0201) := by decide
theorem test_ci : look aOZCS (at0100 [0x25, 0x10] (withA 0x20)) = some (0x20, [0, 0, 0, 0]) := by decide
theorem test_cm : look (fun s => (aOZCS s, s.dc)) (withData [0x8D] 0x20 (withA 0x10))
    = some ((0x10, [0, 0, 1, 1]), 0x0201) := by decide
theorem test_ds : look (fun s => (s.reg 0, ozcs s)) (at0100 [0x30] (withReg 0 0x02 0x55))
    = some (0x01, [0, 0, 1, 1]) := by decide
theorem test_ds_decrement : look (fun s => (s.reg 16, s.is)) (at0100 [0x3E] { withReg 16 0x01 0 with is := 0o20 })
    = some (0x00, 0o27) := by decide
theorem test_ni : look aOZCS (at0100 [0x21, 0x0F] (withA 0xF0)) = some (0x00, [0, 1, 0, 1]) := by decide
theorem test_oi : look aOZCS (at0100 [0x22, 0x0F] (withA 0xF0)) = some (0xFF, [0, 0, 0, 0]) := by decide
theorem test_xi : look aOZCS (at0100 [0x23, 0xFF] (withA 0xAA)) = some (0x55, [0, 0, 0, 1]) := by decide
theorem test_com : look aOZCS (at0100 [0x18] (withA 0x80)) = some (0x7F, [0, 0, 0, 1]) := by decide
theorem test_sr1 : look aOZCS (at0100 [0x12] (withA 0x81)) = some (0x40, [0, 0, 0, 1]) := by decide
theorem test_sl1 : look aOZCS (at0100 [0x13] (withA 0x40)) = some (0x80, [0, 0, 0, 0]) := by decide
theorem test_sr4 : look aOZCS (at0100 [0x14] (withA 0xF0)) = some (0x0F, [0, 0, 0, 1]) := by decide
theorem test_sl4 : look aOZCS (at0100 [0x15] (withA 0x0F)) = some (0xF0, [0, 0, 0, 0]) := by decide
theorem test_nm : look aOZCS (withData [0x8A] 0xFF (withA 0xAA)) = some (0xAA, [0, 0, 0, 0]) := by decide
theorem test_om : look aOZCS (withData [0x8B] 0x00 (withA 0x00)) = some (0x00, [0, 1, 0, 1]) := by decide
theorem test_xm : look aOZCS (withData [0x8C] 0x80 (withA 0x80)) = some (0x00, [0, 1, 0, 1]) := by decide
theorem test_ns : look aOZCS (at0100 [0xF0] (withReg 0 0x55 0x55)) = some (0x55, [0, 0, 0, 1]) := by decide
theorem test_xs : look aOZCS (at0100 [0xE2] (withReg 2 0x0F 0xF0)) = some (0xFF, [0, 0, 0, 0]) := by decide
theorem test_amd : look aOZCS (withData [0x89] 0x50 (withA 0xB6)) = some (0x00, [0, 0, 1, 1]) := by decide
theorem test_asd : look aOZCS (at0100 [0xD1] (withReg 1 0x49 0x9E)) = some (0x87, [0, 0, 0, 0]) := by decide
/-- Another function as `bcdAdjust` (R135): the instruction runs, what it leaves in A is open. -/
theorem test_asd_uninterpreted : look (fun s => (s.p0, s.is))
    (at0100 [0xDD] { withA 0x9E with platform := { resetPlatform with bcdAdjust := .uninterpreted 0 } })
      = some (0x0101, 1) := by decide
theorem test_adc : look (fun s => s.dc) (at0100 [0x8E] { withA 0x80 with dc := 0x0100 }) = some 0x0080 := by decide
theorem test_adc_wraps : look (fun s => s.dc) (at0100 [0x8E] { withA 0x01 with dc := 0xFFFF }) = some 0x0000 := by
  decide

-- section 2.7, the lines B1 to B19
theorem test_bp : look (·.p0) (at0100 [0x81, 0x10] (withFlags false true false true)) = some 0x0111 := by decide
theorem test_bc : look (·.p0) (at0100 [0x82, 0x10] (withFlags false false true false)) = some 0x0111 := by decide
theorem test_bz : look (·.p0) (at0100 [0x84, 0x02] (withFlags false true false true)) = some 0x0103 := by decide
theorem test_bt_ignores_overflow : look (·.p0) (at0100 [0x87, 0x10] (withFlags true false false false)) = some 0x0102 := by
  decide
theorem test_bt_five : look (·.p0) (at0100 [0x85, 0x10] (withFlags false true false false)) = some 0x0111 := by decide
theorem test_br : look (·.p0) (at0100 [0x90, 0x80] (withFlags true true true true)) = some 0x0081 := by decide
theorem test_bm : look (·.p0) (at0100 [0x91, 0x10] (withFlags false false false false)) = some 0x0111 := by decide
theorem test_bnc : look (·.p0) (at0100 [0x92, 0x05] (withFlags false false true true)) = some 0x0102 := by decide
theorem test_bnz : look (·.p0) (at0100 [0x94, 0xFB] (withFlags false false false true)) = some 0x00FC := by decide
theorem test_bno : look (·.p0) (at0100 [0x98, 0x7F] (withFlags true false false false)) = some 0x0102 := by decide
theorem test_bf_ignores_sign : look (·.p0) (at0100 [0x9E, 0x10] (withFlags false false false true)) = some 0x0111 := by
  decide
theorem test_bf_all : look (·.p0) (at0100 [0x9F, 0x10] (withFlags false true false true)) = some 0x0102 := by decide
theorem test_br7 : look (·.p0) (at0100 [0x8F, 0xFD] { State.reset with is := 0o21 }) = some 0x00FE := by decide
theorem test_br7_at_seven : look (·.p0) (at0100 [0x8F, 0xFD] { State.reset with is := 0o07 }) = some 0x0102 := by decide
theorem test_jmp : look (fun s => (s.p0, s.a, s.intInhibit)) (at0100 [0x29, 0x01, 0x80] (withA 0x55))
    = some (0x0180, 0x01, true) := by decide
theorem test_lrP0Q : look (fun s => (s.p0, s.intInhibit)) (at0100 [0x0D] ((withReg 14 0x02 0).setReg 15 0x40))
    = some (0x0240, false) := by decide
theorem test_pi : look (fun s => (s.p, s.p0, s.a)) (at0100 [0x28, 0x00, 0x10] (withA 0x55))
    = some (0x0103, 0x0010, 0x00) := by decide
theorem test_pk : look (fun s => (s.p, s.p0, s.a)) (at0100 [0x0C] ((withReg 12 0x00 0x55).setReg 13 0x03))
    = some (0x0101, 0x0003, 0x55) := by decide
theorem test_pop : look (fun s => (s.p0, s.p)) (at0100 [0x1C] { State.reset with p := 0x0003 })
    = some (0x0003, 0x0003) := by decide

-- section 2.8
theorem test_clr : look aOZCS (at0100 [0x70] { withA 0x5A with flags := ⟨true, false, true, false⟩ })
    = some (0x00, [1, 0, 1, 0]) := by decide
theorem test_lis : look (·.a) (at0100 [0x7F] State.reset) = some 0x0F := by decide
theorem test_li : look (·.a) (at0100 [0x20, 0x7F] State.reset) = some 0x7F := by decide
theorem test_lrAKU : look (·.a) (at0100 [0x00] (withReg 12 0x12 0)) = some 0x12 := by decide
theorem test_lrAKL : look (·.a) (at0100 [0x01] (withReg 13 0x34 0)) = some 0x34 := by decide
theorem test_lrAQU : look (·.a) (at0100 [0x02] (withReg 14 0xAB 0)) = some 0xAB := by decide
theorem test_lrAQL : look (·.a) (at0100 [0x03] (withReg 15 0xCD 0)) = some 0xCD := by decide
theorem test_lrKUA : look (·.reg 12) (at0100 [0x04] (withA 0x02)) = some 0x02 := by decide
theorem test_lrKLA : look (·.reg 13) (at0100 [0x05] (withA 0x02)) = some 0x02 := by decide
theorem test_lrQUA : look (·.reg 14) (at0100 [0x06] (withA 0x02)) = some 0x02 := by decide
theorem test_lrQLA : look (·.reg 15) (at0100 [0x07] (withA 0x02)) = some 0x02 := by decide
theorem test_lrAR : look (fun s => (s.a, s.is)) (at0100 [0x4D] { withReg 23 0x99 0 with is := 0o27 })
    = some (0x99, 0o20) := by decide
theorem test_lrRA : look (fun s => (s.reg 16, s.is)) (at0100 [0x5E] { withA 0xA0 with is := 0o20 })
    = some (0xA0, 0o27) := by decide
theorem test_lrRA_top : look (fun s => (s.reg 63, s.is)) (at0100 [0x5C] { withA 0x01 with is := 0o77 })
    = some (0x01, 0o77) := by decide
theorem test_lm : look (fun s => (s.a, s.dc)) (withData [0x16] 0xDE State.reset) = some (0xDE, 0x0201) := by decide
theorem test_lm_wraps : look (fun s => (s.a, s.dc))
    { State.reset with dc := 0xFFFF, mem := [(0, 0x16), (0xFFFF, 0x42)] } = some (0x42, 0x0000) := by decide
theorem test_st : look (fun s => (Memory.read s.mem 0x0300, s.dc)) (at0100 [0x17] { withA 0xDE with dc := 0x0300 })
    = some (some 0xDE, 0x0301) := by decide

-- section 2.9
theorem test_dci : look (fun s => (s.dc, s.a)) (at0100 [0x2A, 0x12, 0x34] (withA 0x55)) = some (0x1234, 0x55) := by decide
theorem test_xdc : look (fun s => (s.dc, s.dc1)) (at0100 [0x2C] { State.reset with dc := 0x0200, dc1 := 0x0300 })
    = some (0x0300, 0x0200) := by decide
theorem test_lrDCQ : look (·.dc) (at0100 [0x0F] ((withReg 14 0x12 0).setReg 15 0x34)) = some 0x1234 := by decide
theorem test_lrQDC : look (fun s => (s.reg 14, s.reg 15)) (at0100 [0x0E] { State.reset with dc := 0x0104 })
    = some (0x01, 0x04) := by decide
theorem test_lrDCH : look (·.dc) (at0100 [0x10] ((withReg 10 0x03 0).setReg 11 0xFF)) = some 0x03FF := by decide
theorem test_lrHDC : look (fun s => (s.reg 10, s.reg 11)) (at0100 [0x11] { State.reset with dc := 0xABCD })
    = some (0xAB, 0xCD) := by decide
theorem test_lisl : look (·.is) (at0100 [0x62] { State.reset with is := 0o35 }) = some 0o32 := by decide
theorem test_lisu : look (·.is) (at0100 [0x6A] { State.reset with is := 0o35 }) = some 0o25 := by decide
theorem test_lrISA : look (·.is) (at0100 [0x0B] (withA 0xD7)) = some 0o27 := by decide
theorem test_lrAIS : look (·.a) (at0100 [0x0A] { withA 0xFF with is := 0o27 }) = some 0x17 := by decide
theorem test_lrPK : look (·.p) (at0100 [0x09] ((withReg 12 0x00 0).setReg 13 0x03)) = some 0x0003 := by decide
theorem test_lrKP : look (fun s => (s.reg 12, s.reg 13)) (at0100 [0x08] { State.reset with p := 0x0003 })
    = some (0x00, 0x03) := by decide

-- sections 2.10 and 2.11
theorem test_in : look (fun s => (aOZCS s, s.events, s.intInhibit)) (at0100 [0x26, 0x05] { State.reset with portIn := [0x80] })
    = some ((0x80, [0, 0, 0, 0]), [.portRead 5 0x80], false) := by decide
theorem test_ins : look aOZCS (at0100 [0xAF] { withFlags true false true false with portIn := [0x7F] })
    = some (0x7F, [0, 0, 0, 1]) := by decide
theorem test_out : look (fun s => (s.events, s.intInhibit)) (at0100 [0x27, 0x04] (withA 0x3C))
    = some ([.portWrite 4 0x3C], true) := by decide
theorem test_outs : look (fun s => (s.events, s.intInhibit)) (at0100 [0xBF] (withA 0x80))
    = some ([.portWrite 15 0x80], true) := by decide
theorem test_di : look (fun s => (s.icb, s.intInhibit)) (at0100 [0x1A] { State.reset with icb := true })
    = some (false, false) := by decide
theorem test_ei : look (fun s => (s.icb, s.intInhibit)) (at0100 [0x1B] State.reset) = some (true, true) := by decide
theorem test_lrWJ : look (fun s => (s.icb, ozcs s, s.intInhibit)) (at0100 [0x1D] (withReg 9 0xF6 0))
    = some (true, [0, 1, 1, 0], true) := by decide
theorem test_lrJW : look (·.reg 9) (at0100 [0x1E] { withFlags true true true true with icb := true }) = some 0x1F := by
  decide
theorem test_nop : look (·.p0) (at0100 [0x2B] State.reset) = some 0x0101 := by decide
theorem test_undefined : step (at0100 [0x5F] State.reset) = .fault (.illegalOpcode 0x5F 0x0100) := rfl

-- section 2.12 and part 4
/-- A state that runs NOPs, with one source, ICB and the hold-off as given, and one request. -/
def interruptible (icb hold : Bool) : State :=
  { at0100 [0x2B, 0x2B] State.reset with
    icb := icb, intInhibit := hold, p := 0x0044, requests := [[7]]
    platform := { resetPlatform with intVector := [(7, 0x00A0)] } }

theorem test_interrupt_accepted : look (fun s => (s.p, s.p0, s.icb, s.events)) (interruptible true false)
    = some (0x0100, 0x00A0, false, [.interrupt 7]) := by decide
theorem test_interrupt_held_off : look (fun s => (s.p, s.p0, s.intInhibit)) (interruptible true true)
    = some (0x0044, 0x0101, false) := by decide
theorem test_store_to_rom_refused :
    step { at0100 [0x17] State.reset with platform := { resetPlatform with memMap := [⟨.rom, 0, 65536⟩] } }
      = .refused (.storeNotRam 0) := rfl
theorem test_read_of_unwritten_faults : step (at0100 [0x16] State.reset) = .fault (.unwritten 0) := rfl

-- The state after reset, and the host's way in
theorem test_reset_memory_wf : Memory.wf State.reset.mem = true := by decide
theorem test_withFetchWord_runs : look (·.p0) (State.reset.withFetchWord 24 0x800129) = some 0x0180 := by decide

-- Witnesses: the hypotheses of the obligations are met

/-- Whether an outcome is a next state. -/
def completes (o : Out) : Bool :=
  match o with
  | .next _ => true
  | _ => false

/-- The next state of an outcome; the reset state where there is none. -/
def nextOf (o : Out) : State :=
  match o with
  | .next t => t
  | _ => State.reset

/-- An outcome that completes is the next state `nextOf` gives. -/
theorem eq_next_of_completes {o : Out} (h : completes o = true) : o = .next (nextOf o) := by
  cases o
  case next t => rfl
  all_goals cases h

/-- The boundary of the address space: PI at FFFE, its last byte at 0000. -/
def straddling : State :=
  { State.reset with p0 := 0xFFFE, mem := [(0x0000, 0x34), (0xFFFE, 0x28), (0xFFFF, 0x12)] }

theorem witness_DecodeOfEncodeIsTheInstruction :
    (Instr.bt 7 0xFF).wellFormed = true ∧ (Instr.bf 15 0x00).wellFormed = true ∧ (Instr.lis 15).wellFormed = true ∧
    (Instr.undefined 0xFF).wellFormed = true ∧ (Instr.asR .viaISDec).wellFormed = true := by decide

theorem witness_UndefinedFirstBytesAreTheTen :
    (0x2D : Byte) ∈ undefinedOpcodes ∧ decodeBytes true 0x2D 0 0 = .undefined 0x2D ∧
    (0xFE : Byte) ∉ undefinedOpcodes ∧ decodeBytes true 0xFE 0 0 ≠ .undefined 0xFE := by decide

theorem witness_StepRunsTheDecodedInstruction :
    acceptedInterrupt straddling = none ∧ readMem straddling straddling.p0 = .ok 0x28 ∧
    (2 ≤ instrLength 0x28 → readMem straddling (straddling.p0 + 1) = .ok 0x12) ∧
    (3 ≤ instrLength 0x28 → readMem straddling (straddling.p0 + 2) = .ok 0x34) ∧
    decode straddling.platform.lisEncodingAsPrinted [0x28, 0x12, 0x34] = .ok (.pi 0x1234, []) :=
  ⟨rfl, rfl, fun _ => rfl, fun _ => rfl, rfl⟩

theorem witness_FetchOfAbsentByteFaults :
    (acceptedInterrupt State.reset = none ∧ readMem State.reset State.reset.p0 = .error (.unwritten 0)) ∧
    (acceptedInterrupt (at0100 [0x24] State.reset) = none ∧ readMem (at0100 [0x24] State.reset) 0x0100 = .ok 0x24 ∧ 2 ≤ instrLength 0x24 ∧
      readMem (at0100 [0x24] State.reset) (0x0100 + 1) = .error (.unwritten 0x0101)) ∧
    (acceptedInterrupt (at0100 [0x29, 0x01] State.reset) = none ∧
      readMem (at0100 [0x29, 0x01] State.reset) 0x0100 = .ok 0x29 ∧ 3 ≤ instrLength 0x29 ∧
      readMem (at0100 [0x29, 0x01] State.reset) (0x0100 + 1) = .ok 0x01 ∧
      readMem (at0100 [0x29, 0x01] State.reset) (0x0100 + 2) = .error (.unwritten 0x0102)) :=
  ⟨⟨rfl, rfl⟩, ⟨rfl, rfl, by decide, rfl⟩, ⟨rfl, rfl, by decide, rfl, rfl⟩⟩

/-- ROM from 0 to 0x7FF with a byte at its last address, nothing above. -/
def romOnly : State :=
  { State.reset with
    mem := [(0x07FE, 0x2B), (0x07FF, 0x17)], p0 := 0x07FE
    platform := { resetPlatform with memMap := [⟨.rom, 0, 0x0800⟩] } }

theorem witness_ReadAnswersByTheMap :
    kindAt romOnly.platform 0x0800 = .unpopulated ∧
    (kindAt romOnly.platform 0x0000 ≠ .unpopulated ∧ ∀ c ∈ romOnly.mem, c.1 ≠ 0) ∧
    (kindAt romOnly.platform 0x07FF ≠ .unpopulated ∧
      romOnly.mem = [(0x07FE, 0x2B)] ++ (0x07FF, 0x17) :: [] ∧ ∀ c ∈ [((0x07FE : Nat), (0x2B : Byte))], c.1 ≠ 0x07FF) := by
  decide

theorem witness_UndefinedFirstByteStopsTheStep :
    acceptedInterrupt (at0100 [0x5F] State.reset) = none ∧ (0x5F : Byte) ∈ undefinedOpcodes ∧
    readMem (at0100 [0x5F] State.reset) 0x0100 = .ok 0x5F := ⟨rfl, by decide, rfl⟩

/-- Both sides of the equivalence, with a source of higher priority that does not request. -/
def twoSources : State :=
  { interruptible true false with platform := { resetPlatform with intVector := [(3, 0x0020), (7, 0x00A0)] } }

theorem witness_InterruptAcceptance :
    acceptedInterrupt twoSources = some (7, 0x00A0) ∧ twoSources.icb = true ∧ twoSources.intInhibit = false ∧
    7 ∈ presented twoSources ∧ twoSources.platform.intVector = [(3, 0x0020)] ++ (7, 0x00A0) :: [] ∧
    (∀ e ∈ [((3 : IntSource), (0x0020 : Addr))], e.1 ∉ presented twoSources) := by decide

theorem witness_InterruptEntry : acceptedInterrupt (interruptible true false) = some (7, 0x00A0) := by decide

theorem witness_PrivilegedMarkHoldsOffInterrupts :
    (completes (exec .ei (interruptible false false)) = true ∧ Instr.ei.privileged = true) ∧
    (completes (exec .nop (interruptible true true)) = true ∧ Instr.nop.privileged = false) := by decide

theorem witness_IcbChangesOnlyByItsWriters :
    (step (at0100 [0x1B] State.reset) = .next (nextOf (step (at0100 [0x1B] State.reset))) ∧
      (nextOf (step (at0100 [0x1B] State.reset))).icb ≠ (at0100 [0x1B] State.reset).icb) ∧
    (step (interruptible true false) = .next (nextOf (step (interruptible true false))) ∧
      (nextOf (step (interruptible true false))).icb ≠ (interruptible true false).icb) :=
  ⟨⟨rfl, by decide⟩, ⟨rfl, by decide⟩⟩

/-- A store to the last address, from a sound state with a hole in its map. -/
def soundStore : State :=
  { at0100 [0x17] (withA 0x5A) with
    dc := 0xFFFF
    platform := { resetPlatform with memMap := [⟨.rom, 0, 0x0800⟩, ⟨.ram, 0xFFC0, 0x40⟩] } }

theorem witness_StepKeepsSound : soundStore.Sound ∧ step soundStore = .next (nextOf (step soundStore)) ∧
    Memory.read (nextOf (step soundStore)).mem 0xFFFF = some 0x5A := by
  refine ⟨⟨by decide, ?_⟩, rfl, by decide⟩
  intro c hc
  simp only [soundStore, at0100, withA, List.zipIdx, List.map, List.mem_singleton] at hc
  subst hc
  decide

theorem witness_RunKeepsPlatformAndRom :
    (∃ t, Sys2Proof.core.run 2 { romOnly with mem := [(0x07FE, 0x2B), (0x07FF, 0x70)] } = .next t) ∧
    kindAt romOnly.platform 0x07FF ≠ .ram ∧ kindAt romOnly.platform 0x0800 ≠ .ram :=
  ⟨⟨_, rfl⟩, by decide, by decide⟩

theorem witness_StepReportsAtMostOneEvent :
    (nextOf (step (interruptible true false))).events = [.interrupt 7] ∧
    (nextOf (step (at0100 [0xB4] State.reset))).events = [.portWrite 4 0] ∧
    completes (step (interruptible true false)) = true ∧ completes (step (at0100 [0xB4] State.reset)) = true := by decide

theorem witness_MemoryChangesOnlyByStore :
    (Instr.lm ≠ .st) ∧ completes (exec .lm (withData [0x16] 0xDE State.reset)) = true := by decide

/-- Each clause: P, DC1, DC and IS do change, by an instruction of the clause. -/
theorem witness_AddressRegistersChangeOnlyByTheirWriters :
    (completes (exec .pk straddling) = true ∧ (nextOf (exec .pk straddling)).p ≠ straddling.p) ∧
    (nextOf (exec .xdc { straddling with dc := 0xFFFF })).dc1 ≠ straddling.dc1 ∧
    (nextOf (exec .lm { straddling with dc := 0xFFFF })).dc ≠ 0xFFFF ∧
    (nextOf (exec (.asR .viaISDec) straddling)).is ≠ straddling.is := by decide

/-- Each clause: A does change, a compare completes, and a register does change, direct and through IS. -/
theorem witness_AccumulatorAndScratchpadChangeOnlyByTheirWriters :
    (completes (exec .inc straddling) = true ∧ (nextOf (exec .inc straddling)).a ≠ straddling.a) ∧
    completes (exec (.ci 0x80) straddling) = true ∧
    (nextOf (exec (.dsR (.direct 11)) straddling)).reg 11 ≠ straddling.reg 11 ∧
    (nextOf (exec (.dsR .viaISInc) { straddling with is := 0o77 })).reg 63 ≠ straddling.reg 63 := by decide

/-- The reset state with another function as `bcdAdjust`. -/
def otherAdjust : State := { State.reset with platform := { resetPlatform with bcdAdjust := .uninterpreted 7 } }

/-- Each row, a result with Z set, and AMD's row under both choices of `bcdAdjust`. -/
theorem witness_FlagsFollowTheTable :
    (completes (exec .lrWJ straddling) = true ∧ Instr.lrWJ.flagRow = .loaded) ∧
    (completes (exec (.asdR .viaIS) straddling) = true ∧ (Instr.asdR .viaIS).flagRow = .arithmetic ∧
      (Instr.asdR .viaIS).decimal = true ∧ straddling.platform.bcdAdjust = .decAdd) ∧
    (completes (exec (.asdR .viaIS) otherAdjust) = true ∧ otherAdjust.platform.bcdAdjust ≠ .decAdd) ∧
    (completes (exec .nop straddling) = true ∧ Instr.nop.flagRow = .unaltered) ∧
    (completes (exec .com straddling) = true ∧ Instr.com.flagRow = .logical) ∧
    (completes (exec .sr4 straddling) = true ∧ Instr.sr4.flagRow = .rightShift) ∧
    (completes (exec .lnk straddling) = true ∧ Instr.lnk.flagRow = .arithmetic ∧
      (nextOf (exec .lnk straddling)).flags.z = true) := by decide

theorem witness_SequentialInstructionsAdvanceP0 :
    completes (exec (.dci 0x1234) { State.reset with p0 := 0xFFFF }) = true ∧
    (Instr.dci 0x1234).transfersControl = false := by decide

theorem witness_EveryInstructionCompletes :
    ((∀ op, Instr.lm ≠ .undefined op) ∧ Instr.lm.readsMemory = true ∧
      readMem (withData [] 0xDE State.reset) 0x0200 = .ok 0xDE) ∧
    ((∀ op, Instr.st ≠ .undefined op) ∧ Instr.st.readsMemory = false ∧
      kindAt State.reset.platform State.reset.dc = .ram) ∧
    ((∀ op, Instr.pop ≠ .undefined op) ∧ Instr.pop.readsMemory = false ∧ Instr.pop ≠ .st) :=
  ⟨⟨by simp, rfl, rfl⟩, ⟨by simp, rfl, rfl⟩, ⟨by simp, rfl, by simp⟩⟩

theorem witness_MemoryOperandStops :
    (Instr.am.readsMemory = true ∧ readMem State.reset State.reset.dc = .error (.unwritten 0)) ∧
    (Instr.cm.readsMemory = true ∧
      readMem { romOnly with dc := 0x0800 } 0x0800 = .error (.unpopulated 0x0800)) ∧
    (kindAt romOnly.platform romOnly.dc ≠ .ram ∧ kindAt romOnly.platform 0xFFFF ≠ .ram) :=
  ⟨⟨rfl, rfl⟩, ⟨rfl, rfl⟩, by decide, by decide⟩

theorem witness_DC1IsInvisibleExceptToXDC : Instr.lm ≠ .xdc ∧ Instr.undefined 0x2D ≠ .xdc := by decide

/-- The branch to itself whose displacement byte stands at address 0. -/
def selfBranch : State := { State.reset with p0 := 0xFFFF, mem := [(0x0000, 0xFF), (0xFFFF, 0x90)] }

theorem witness_BranchToSelfIsAFixedPoint :
    selfBranch.intInhibit = false ∧ selfBranch.requests = [] ∧ readMem selfBranch selfBranch.p0 = .ok 0x90 ∧
    readMem selfBranch (selfBranch.p0 + 1) = .ok 0xFF := ⟨rfl, rfl, rfl, rfl⟩

theorem witness_AdditionResults : readMem (withData [] 0xF0 State.reset) 0x0200 = .ok 0xF0 := rfl
theorem witness_SubtractionResults : readMem (withData [] 0x20 State.reset) 0x0200 = .ok 0x20 := rfl
theorem witness_LogicalMemoryAndScratchpadResults : readMem (withData [] 0xFF State.reset) 0x0200 = .ok 0xFF := rfl
theorem witness_DecimalAdditionResults :
    (readMem (withData [] 0x99 State.reset) 0x0200 = .ok 0x99 ∧ State.reset.platform.bcdAdjust = .decAdd) ∧
    (readMem (withData [] 0x99 otherAdjust) 0x0200 = .ok 0x99 ∧ otherAdjust.platform.bcdAdjust ≠ .decAdd) :=
  ⟨⟨rfl, rfl⟩, ⟨rfl, by decide⟩⟩

/-- 99 + 99, biased, in a register and in memory, and 00 + 00. -/
theorem witness_DecimalAdditionOfDigits :
    ((withReg 3 0x99 0xFF).platform.bcdAdjust = .decAdd ∧ (withData [] 0x99 (withA 0xFF)).platform.bcdAdjust = .decAdd) ∧
    ((withReg 3 0x99 0xFF).a = BitVec.ofNat 8 (16 * 9 + 9 + 0x66) ∧
      (withReg 3 0x99 0xFF).reg (scrIndex (.direct 3) (withReg 3 0x99 0xFF).is) = BitVec.ofNat 8 (16 * 9 + 9)) ∧
    ((withData [] 0x99 (withA 0xFF)).a = BitVec.ofNat 8 (16 * 9 + 9 + 0x66) ∧
      readMem (withData [] 0x99 (withA 0xFF)) 0x0200 = .ok (BitVec.ofNat 8 (16 * 9 + 9))) ∧
    ((withA 0x66).a = BitVec.ofNat 8 (16 * 0 + 0 + 0x66) ∧ (withA 0x66).reg 63 = BitVec.ofNat 8 (16 * 0 + 0)) :=
  ⟨⟨rfl, rfl⟩, ⟨rfl, rfl⟩, ⟨rfl, rfl⟩, rfl, rfl⟩

/-- The list of the statement at any state, its last entry. -/
theorem witness_NamedBranchResults (s : State) :
    (Instr.bz 0xFF, s.flags.z = true) ∈ [(Instr.br 0xFF, True), (.bm 0xFF, s.flags.s = false),
      (.bnc 0xFF, s.flags.c = false), (.bno 0xFF, s.flags.o = false), (.bnz 0xFF, s.flags.z = false),
      (.bc 0xFF, s.flags.c = true), (.bp 0xFF, s.flags.s = true), (.bz 0xFF, s.flags.z = true)] := by simp

theorem witness_SecondLevelReturn : ∃ t u, exec (.pi 0xFFFF) straddling = .next t ∧ exec .lrKP t = .next u ∧
    u.reg 12 = 0x00 ∧ u.reg 13 = 0x01 ∧ (u.withDC1 5).reg 12 = u.reg 12 ∧ (u.withDC1 5).reg 13 = u.reg 13 :=
  ⟨_, _, rfl, rfl, by decide, by decide, rfl, rfl⟩

theorem witness_LinkageHalfMoves :
    (Instr.lrAQL, (0x03 : Byte), (15 : ScratchIdx))
      ∈ [(Instr.lrAKU, (0x00 : Byte), (12 : ScratchIdx)), (.lrAKL, 0x01, 13), (.lrAQU, 0x02, 14), (.lrAQL, 0x03, 15)] ∧
    (Instr.lrKUA, (0x04 : Byte), (12 : ScratchIdx))
      ∈ [(Instr.lrKUA, (0x04 : Byte), (12 : ScratchIdx)), (.lrKLA, 0x05, 13), (.lrQUA, 0x06, 14), (.lrQLA, 0x07, 15)] := by
  decide

/-- A byte to load at the last address, and RAM to store to at the first and the last. -/
theorem witness_LoadAndStore :
    readMem { selfBranch with dc := 0xFFFF } 0xFFFF = .ok 0x90 ∧ kindAt selfBranch.platform 0xFFFF = .ram ∧
    kindAt selfBranch.platform 0x0000 = .ram := ⟨rfl, rfl, rfl⟩

theorem witness_AddressRegisterStores :
    (Instr.lrKP, State.reset.p, (12 : ScratchIdx), (13 : ScratchIdx))
      ∈ [(Instr.lrQDC, State.reset.dc, (14 : ScratchIdx), (15 : ScratchIdx)), (.lrHDC, State.reset.dc, 10, 11),
          (.lrKP, State.reset.p, 12, 13)] := by decide

/-- Ports 0 and 255 by the long form, 15 by the short one, with an answer given and with none. -/
theorem witness_InputResults :
    (Instr.inP 0xFF, (0xFF : Byte)) ∈ [(Instr.inP 0xFF, 0xFF), (.insP 15, BitVec.ofNat 8 (15 : BitVec 4).toNat)] ∧
    (Instr.inP 0x00, (0x00 : Byte)) ∈ [(Instr.inP 0x00, 0x00), (.insP 15, BitVec.ofNat 8 (15 : BitVec 4).toNat)] ∧
    (Instr.insP 15, (0x0F : Byte)) ∈ [(Instr.inP 0x00, 0x00), (.insP 15, BitVec.ofNat 8 (15 : BitVec 4).toNat)] ∧
    ({ State.reset with portIn := [0x80, 1] } : State).portIn = 0x80 :: [1] ∧ State.reset.portIn = [] := by decide

theorem witness_OutputResults :
    (Instr.outP 0x00, (0x00 : Byte)) ∈ [(Instr.outP 0x00, 0x00), (.outsP 15, BitVec.ofNat 8 (15 : BitVec 4).toNat)] ∧
    (Instr.outsP 15, (0x0F : Byte)) ∈ [(Instr.outP 0x00, 0x00), (.outsP 15, BitVec.ofNat 8 (15 : BitVec 4).toNat)] := by
  decide

theorem witness_StatusSaveAndRestore :
    ∃ t, exec .lrJW (withFlags true false true false) = .next t ∧ (t.withDC1 5).reg 9 = t.reg 9 ∧ t.reg 9 = 0x0A :=
  ⟨_, rfl, rfl, by decide⟩

/-- A row that adds up and one that the source truncates. -/
theorem witness_CycleSumsMatchTheTimes :
    (cyclesPrinted .lm State.reset = some [.long, .short] ∧ micros .lm State.reset = some 5 ∧
      cycleCellTruncated .lm = false) ∧
    (cyclesPrinted (.jmp 0) State.reset = some [.short, .long] ∧ micros (.jmp 0) State.reset = some 11 ∧
      cycleCellTruncated (.jmp 0) = true) := by decide

/-- R30: both sides of the premise about the end of the address space. -/
theorem witness_PastBytes : (0xFFFD : Addr).toNat + 2 < 2 ^ addrBits ∧ ¬ (0xFFFE : Addr).toNat + 2 < 2 ^ addrBits := by decide

end Sys2Proof.Tests
end

section
/-! PROOFS. The family of spec/41_arithmetic_logical.md: the instructions whose result and flags are `logic8` of a byte
computed from A. All eight leave the state `State.afterLogic`; each differs from the others in its length and that byte. -/

namespace Sys2Proof.Machine

/-- Whatever moves P0 on by `n`, modulo the size of the address space, is past `n` bytes where that does not wrap. -/
theorem pastBytes_of_p0 {n : Nat} {s t : State} (h : t.p0 = s.p0 + BitVec.ofNat addrBits n) : PastBytes n s t := by
  intro hfits
  rw [h, BitVec.toNat_add, BitVec.toNat_ofNat, Nat.add_mod_mod, Nat.mod_eq_of_lt hfits]

/-- The state after a completed instruction of `n` bytes with the logical result `v` (R132). -/
def State.afterLogic (s : State) (n : Nat) (v : Byte) : State := { (s.fetched n).setLogic v with intInhibit := false }

section
variable (s : State) (n : Nat) (v ii : Byte)

@[simp] theorem State.afterLogic_a : (s.afterLogic n v).a = v := rfl

theorem State.afterLogic_logicalFlags : LogicalFlags (s.afterLogic n v).a (s.afterLogic n v).flags := logic8_flags v

theorem State.afterLogic_pastBytes : PastBytes n s (s.afterLogic n v) := pastBytes_of_p0 rfl

/-- A logical result changes A, the flags, P0 and the interrupt hold-off, and no other field. -/
theorem State.afterLogic_frame : s.afterLogic n v =
    { s with p0 := (s.afterLogic n v).p0, intInhibit := (s.afterLogic n v).intInhibit, a := (s.afterLogic n v).a,
             flags := (s.afterLogic n v).flags } := rfl

theorem exec_ni : exec (.ni ii) s = .next (s.afterLogic 2 (s.a &&& ii)) := rfl
theorem exec_oi : exec (.oi ii) s = .next (s.afterLogic 2 (s.a ||| ii)) := rfl
theorem exec_xi : exec (.xi ii) s = .next (s.afterLogic 2 (s.a ^^^ ii)) := rfl
theorem exec_com : exec .com s = .next (s.afterLogic 1 (~~~s.a)) := rfl
theorem exec_sl1 : exec .sl1 s = .next (s.afterLogic 1 (s.a <<< 1)) := rfl
theorem exec_sl4 : exec .sl4 s = .next (s.afterLogic 1 (s.a <<< 4)) := rfl
theorem exec_sr1 : exec .sr1 s = .next (s.afterLogic 1 (s.a >>> 1)) := rfl
theorem exec_sr4 : exec .sr4 s = .next (s.afterLogic 1 (s.a >>> 4)) := rfl

end

/-- A left shift in numbers: the bits that pass bit 7 are lost. -/
theorem toNat_byte_shiftLeft (v : Byte) (k : Nat) : (v <<< k).toNat = 2 ^ k * v.toNat % 256 := by
  rw [BitVec.toNat_shiftLeft, Nat.shiftLeft_eq, Nat.mul_comm]

/-- A right shift in numbers: the bits that pass bit 0 are lost. -/
theorem toNat_byte_ushiftRight (v : Byte) (k : Nat) : (v >>> k).toNat = v.toNat / 2 ^ k := by
  rw [BitVec.toNat_ushiftRight, Nat.shiftRight_eq_div_pow]

/-- A right shift brings a 0 into bit 7, so S is 1 (R162, R163). -/
theorem signFlag_ushiftRight (v : Byte) {k : Nat} (hk : k ≠ 0) : signFlag (v >>> k) = true := by
  rw [signFlag_iff, toNat_byte_ushiftRight]
  have hv : v.toNat < 256 := v.isLt
  have hpow : 2 ^ 1 ≤ 2 ^ k := Nat.pow_le_pow_right (by decide) (Nat.one_le_iff_ne_zero.mpr hk)
  exact Nat.div_lt_of_lt_mul (by omega)

/-- Settles O33: each of the four leaves `State.afterLogic` of its length and its bitwise result. -/
theorem logicalImmediateResults : Obligations.LogicalImmediateResults := by
  intro sw s ii
  refine ⟨⟨rfl, _, exec_ni s ii, s.afterLogic_pastBytes _ _, ?ni, s.afterLogic_logicalFlags _ _, s.afterLogic_frame _ _⟩,
    ⟨rfl, _, exec_oi s ii, s.afterLogic_pastBytes _ _, ?oi, s.afterLogic_logicalFlags _ _, s.afterLogic_frame _ _⟩,
    ⟨rfl, _, exec_xi s ii, s.afterLogic_pastBytes _ _, ?xi, s.afterLogic_logicalFlags _ _, s.afterLogic_frame _ _⟩,
    ⟨rfl, _, exec_com s, s.afterLogic_pastBytes _ _, ?com, s.afterLogic_logicalFlags _ _, s.afterLogic_frame _ _⟩⟩
  case ni => exact fun _ _ => BitVec.getLsbD_and
  case oi => exact fun _ _ => BitVec.getLsbD_or
  case xi => exact fun _ _ => BitVec.getLsbD_xor
  case com =>
    intro k hk
    rw [State.afterLogic_a, BitVec.getLsbD_not, decide_eq_true hk, Bool.true_and]

/-- Settles O35: each of the four leaves `State.afterLogic` of length 1 and its shifted A. -/
theorem shiftResults : Obligations.ShiftResults := by
  intro sw s
  have sr1_sign : signFlag (s.a >>> 1) = true := signFlag_ushiftRight s.a (by decide)
  have sr4_sign : signFlag (s.a >>> 4) = true := signFlag_ushiftRight s.a (by decide)
  exact ⟨⟨rfl, _, exec_sl1 s, s.afterLogic_pastBytes _ _, toNat_byte_shiftLeft s.a 1,
      s.afterLogic_logicalFlags _ _, s.afterLogic_frame _ _⟩,
    ⟨rfl, _, exec_sl4 s, s.afterLogic_pastBytes _ _, toNat_byte_shiftLeft s.a 4,
      s.afterLogic_logicalFlags _ _, s.afterLogic_frame _ _⟩,
    ⟨rfl, _, exec_sr1 s, s.afterLogic_pastBytes _ _, toNat_byte_ushiftRight s.a 1,
      s.afterLogic_logicalFlags _ _, sr1_sign, s.afterLogic_frame _ _⟩,
    ⟨rfl, _, exec_sr4 s, s.afterLogic_pastBytes _ _, toNat_byte_ushiftRight s.a 4,
      s.afterLogic_logicalFlags _ _, sr4_sign, s.afterLogic_frame _ _⟩⟩

end Sys2Proof.Machine
end

section
/-! PROOFS. The family of spec/43_accumulator_data_movement.md: the instructions that load A and the one-register stores
of A. None of them alters a flag; a load leaves the state `State.afterLoadA`, a store the state `State.afterStoreReg`. -/

namespace Sys2Proof.Machine

/-- The state after a completed instruction of `n` bytes whose only result is `v` in A. -/
def State.afterLoadA (s : State) (n : Nat) (v : Byte) : State := { s.fetched n with a := v, intInhibit := false }

/-- The state after a completed instruction of one byte whose only result is A in the register `r`. -/
def State.afterStoreReg (s : State) (r : ScratchIdx) : State := { (s.fetched 1).setReg r s.a with intInhibit := false }

section
variable (s : State) (n : Nat) (v ii : Byte) (i : BitVec 4) (r : ScratchIdx)

@[simp] theorem State.afterLoadA_a : (s.afterLoadA n v).a = v := rfl

theorem State.afterLoadA_pastBytes : PastBytes n s (s.afterLoadA n v) := pastBytes_of_p0 rfl

/-- A load of A changes A, P0 and the interrupt hold-off, and no other field: no flag and no register. -/
theorem State.afterLoadA_frame : s.afterLoadA n v =
    { s with p0 := (s.afterLoadA n v).p0, intInhibit := (s.afterLoadA n v).intInhibit, a := (s.afterLoadA n v).a } := rfl

theorem State.afterStoreReg_pastBytes : PastBytes 1 s (s.afterStoreReg r) := pastBytes_of_p0 rfl

@[simp] theorem State.afterStoreReg_reg_same : (s.afterStoreReg r).reg r = s.a := reg_setReg_same (s.fetched 1) r s.a

theorem State.afterStoreReg_reg_other {k : ScratchIdx} (h : k ≠ r) : (s.afterStoreReg r).reg k = s.reg k :=
  reg_setReg_other (s.fetched 1) s.a h

/-- A store of A to a register changes the scratchpad, P0 and the interrupt hold-off, and no other field: A keeps its
value. -/
theorem State.afterStoreReg_frame : s.afterStoreReg r =
    { s with p0 := (s.afterStoreReg r).p0, intInhibit := (s.afterStoreReg r).intInhibit,
             scratch := (s.afterStoreReg r).scratch } := rfl

theorem exec_clr : exec .clr s = .next (s.afterLoadA 1 0) := rfl
theorem exec_li : exec (.li ii) s = .next (s.afterLoadA 2 ii) := rfl
theorem exec_lis : exec (.lis i) s = .next (s.afterLoadA 1 (i.setWidth 8)) := rfl
theorem exec_lrAKU : exec .lrAKU s = .next (s.afterLoadA 1 (s.reg 12)) := rfl
theorem exec_lrAKL : exec .lrAKL s = .next (s.afterLoadA 1 (s.reg 13)) := rfl
theorem exec_lrAQU : exec .lrAQU s = .next (s.afterLoadA 1 (s.reg 14)) := rfl
theorem exec_lrAQL : exec .lrAQL s = .next (s.afterLoadA 1 (s.reg 15)) := rfl
theorem exec_lrKUA : exec .lrKUA s = .next (s.afterStoreReg 12) := rfl
theorem exec_lrKLA : exec .lrKLA s = .next (s.afterStoreReg 13) := rfl
theorem exec_lrQUA : exec .lrQUA s = .next (s.afterStoreReg 14) := rfl
theorem exec_lrQLA : exec .lrQLA s = .next (s.afterStoreReg 15) := rfl

/-- What O42 says of a one-byte load of A, once its next state is known. -/
theorem loadA_effect {j : Instr} (h : exec j s = .next (s.afterLoadA 1 v)) :
    ∃ t, exec j s = .next t ∧ PastBytes 1 s t ∧ t.a = v ∧
      t = { s with p0 := t.p0, intInhibit := t.intInhibit, a := t.a } :=
  ⟨_, h, s.afterLoadA_pastBytes 1 v, s.afterLoadA_a 1 v, s.afterLoadA_frame 1 v⟩

/-- What O42 says of a one-byte store of A to a register, once its next state is known. -/
theorem storeReg_effect {j : Instr} (h : exec j s = .next (s.afterStoreReg r)) :
    ∃ t, exec j s = .next t ∧ PastBytes 1 s t ∧ t.reg r = s.a ∧ (∀ k, k ≠ r → t.reg k = s.reg k) ∧
      t = { s with p0 := t.p0, intInhibit := t.intInhibit, scratch := t.scratch } :=
  ⟨_, h, s.afterStoreReg_pastBytes r, s.afterStoreReg_reg_same r, fun _ hk => s.afterStoreReg_reg_other r hk,
    s.afterStoreReg_frame r⟩

end

/-- A first byte that holds a four-bit operand, as a number. -/
theorem shortByte_eq_ofNat (op x : BitVec 4) : shortByte op x = BitVec.ofNat 8 (16 * op.toNat + x.toNat) := by
  apply BitVec.eq_of_toNat_eq
  have hop : op.toNat < 16 := op.isLt
  have hx : x.toNat < 16 := x.isLt
  rw [shortByte, BitVec.toNat_append, ← Nat.shiftLeft_add_eq_or_of_lt hx, Nat.shiftLeft_eq, BitVec.toNat_ofNat]
  omega

/-- Settles O42: four of the moves load A from their register, the other four store A to theirs. -/
theorem linkageHalfMoves : Obligations.LinkageHalfMoves := by
  intro sw s
  constructor
  · intro i op n hi
    simp only [List.mem_cons, List.not_mem_nil, or_false, Prod.mk.injEq] at hi
    obtain ⟨rfl, rfl, rfl⟩ | ⟨rfl, rfl, rfl⟩ | ⟨rfl, rfl, rfl⟩ | ⟨rfl, rfl, rfl⟩ := hi
    · exact ⟨rfl, loadA_effect s _ (exec_lrAKU s)⟩
    · exact ⟨rfl, loadA_effect s _ (exec_lrAKL s)⟩
    · exact ⟨rfl, loadA_effect s _ (exec_lrAQU s)⟩
    · exact ⟨rfl, loadA_effect s _ (exec_lrAQL s)⟩
  · intro i op n hi
    simp only [List.mem_cons, List.not_mem_nil, or_false, Prod.mk.injEq] at hi
    obtain ⟨rfl, rfl, rfl⟩ | ⟨rfl, rfl, rfl⟩ | ⟨rfl, rfl, rfl⟩ | ⟨rfl, rfl, rfl⟩ := hi
    · exact ⟨rfl, storeReg_effect s _ (exec_lrKUA s)⟩
    · exact ⟨rfl, storeReg_effect s _ (exec_lrKLA s)⟩
    · exact ⟨rfl, storeReg_effect s _ (exec_lrQUA s)⟩
    · exact ⟨rfl, storeReg_effect s _ (exec_lrQLA s)⟩

/-- Settles O43: each of the three leaves `State.afterLoadA` of its length and its immediate, which for LIS is in the
first byte. -/
theorem immediateLoads : Obligations.ImmediateLoads := by
  intro sw s ii i
  have lis_value : (i.setWidth 8).toNat = i.toNat := BitVec.toNat_setWidth_of_le (by decide)
  have lis_encode : encode sw (.lis i) = [BitVec.ofNat 8 (0x70 + i.toNat)] :=
    congrArg (fun b => [b]) (shortByte_eq_ofNat 0x7 i)
  exact ⟨⟨rfl, _, exec_clr s, s.afterLoadA_pastBytes _ _, rfl, s.afterLoadA_frame _ _⟩,
    ⟨rfl, _, exec_li s ii, s.afterLoadA_pastBytes _ _, s.afterLoadA_a _ _, s.afterLoadA_frame _ _⟩,
    ⟨lis_encode, _, exec_lis s i, s.afterLoadA_pastBytes _ _, lis_value, s.afterLoadA_frame _ _⟩⟩

end Sys2Proof.Machine
end

section
/-! PROOFS. The family of spec/46_cpu_control.md: NOP, whose only effect is that of the fetch on P0. -/

namespace Sys2Proof.Machine

/-- The state after a completed instruction of `n` bytes that has no result and does not hold interrupts off. -/
def State.afterNothing (s : State) (n : Nat) : State := { s.fetched n with intInhibit := false }

section
variable (s : State) (n : Nat)

theorem State.afterNothing_pastBytes : PastBytes n s (s.afterNothing n) := pastBytes_of_p0 rfl

/-- An instruction without a result changes P0 and the interrupt hold-off, and no other field. -/
theorem State.afterNothing_frame : s.afterNothing n =
    { s with p0 := (s.afterNothing n).p0, intInhibit := (s.afterNothing n).intInhibit } := rfl

theorem exec_nop : exec .nop s = .next (s.afterNothing 1) := rfl

end

/-- The opcode map's first entry (R101): opcode 00 is LR A,KU, whatever bytes follow it. -/
theorem decodeBytes_zero (sw : Bool) (b1 b2 : Byte) : decodeBytes sw 0x00 b1 b2 = .lrAKU := rfl

/-- Settles O53: NOP leaves `State.afterNothing` of length 1, and opcode 00 is LR A,KU. -/
theorem noOperation : Obligations.NoOperation := by
  intro sw s b1 b2
  have zero_not_nop : decodeBytes sw 0x00 b1 b2 ≠ .nop := by
    rw [decodeBytes_zero]
    exact Instr.noConfusion
  exact ⟨rfl, zero_not_nop, rfl, rfl, _, exec_nop s, s.afterNothing_pastBytes 1, s.afterNothing_frame 1⟩

end Sys2Proof.Machine
end

section
/-! PROOFS. Encoding and decoding (spec/30_encoding.md). `decode` reads one, two or three bytes and hands them to
`decodeBytes`, so each direction is a statement about `decodeBytes`, shown row by row of the opcode map. -/

namespace Sys2Proof

section
variable (sw : Bool) (op hi lo : BitVec 4) (b b1 b2 : Byte) (rest : List Byte)

-- A first byte as its two halves

theorem toNat_shortByte : (shortByte hi lo).toNat = 16 * hi.toNat + lo.toNat := by
  have hhi : hi.toNat < 16 := hi.isLt
  have hlo : lo.toNat < 16 := lo.isLt
  rw [Machine.shortByte_eq_ofNat, BitVec.toNat_ofNat, Nat.mod_eq_of_lt (by omega)]

theorem shortByte_low : (shortByte hi lo).toNat % 16 = lo.toNat := by
  have hlo : lo.toNat < 16 := lo.isLt
  rw [toNat_shortByte]
  omega

theorem shortByte_high : (shortByte hi lo).toNat / 16 = hi.toNat := by
  have hlo : lo.toNat < 16 := lo.isLt
  rw [toNat_shortByte]
  omega

/-- The operand half of a first byte, read by its width. -/
theorem setWidth_shortByte : (shortByte hi lo).setWidth 4 = lo :=
  BitVec.eq_of_toNat_eq ((BitVec.toNat_setWidth ..).trans (shortByte_low hi lo))

/-- Every byte is a first byte of two halves (R93). -/
theorem exists_shortByte : ∃ hi lo : BitVec 4, b = shortByte hi lo := by
  have hb : b.toNat < 256 := b.isLt
  refine ⟨BitVec.ofNat 4 (b.toNat / 16), BitVec.ofNat 4 b.toNat, BitVec.eq_of_toNat_eq ?_⟩
  rw [toNat_shortByte, BitVec.toNat_ofNat, BitVec.toNat_ofNat]
  omega

-- What `decode` does once the number of bytes is known

theorem decode_one {b : Byte} (h : instrLength b = 1) :
    decode sw (b :: rest) = .ok (decodeBytes sw b (rest.getD 0 0) (rest.getD 1 0), rest) := by
  simp [decode, h]

theorem decode_two {b : Byte} (h : instrLength b = 2) :
    decode sw (b :: b1 :: rest) = .ok (decodeBytes sw b b1 (rest.getD 0 0), rest) := by
  simp [decode, h]

theorem decode_three {b : Byte} (h : instrLength b = 3) :
    decode sw (b :: b1 :: b2 :: rest) = .ok (decodeBytes sw b b1 b2, rest) := by
  simp [decode, h]

/-- Whatever is decoded is what `decodeBytes` makes of the bytes, with 0 for those that are not there. -/
theorem eq_decodeBytes_of_decode {b : Byte} {rest later : List Byte} {i : Instr}
    (h : decode sw (b :: rest) = .ok (i, later)) : i = decodeBytes sw b (rest.getD 0 0) (rest.getD 1 0) := by
  simp only [decode] at h
  split at h
  · cases h
  · exact (congrArg Prod.fst (Except.ok.inj h)).symm

-- Scratchpad operands (R98)

/-- The field of a scratchpad operand selects that operand. -/
theorem scrOfField_field (r : Scr) : scrOfField r.field.toNat = some r := by
  cases r with
  | direct n =>
    have hn : n.val < 12 := n.isLt
    have hfield : (Scr.direct n).field.toNat = n.val := Nat.mod_eq_of_lt (by omega)
    simp [hfield, scrOfField]
  | _ => rfl

/-- A field below 0xF is the field of the operand it selects, and 0xF selects none. -/
theorem map_field_scrOfField : ∀ lo : BitVec 4,
    (scrOfField lo.toNat).map Scr.field = if lo = 0xF then none else some lo := by decide

theorem decodeScrRow_field (f : Scr → Instr) (r : Scr) : decodeScrRow f (shortByte op r.field) = f r := by
  simp only [decodeScrRow, shortByte_low, scrOfField_field]

end

/-- The rows of the opcode map whose low half is a scratchpad operand (R98, R101). -/
def scrRows : List (BitVec 4) := [0x3, 0x4, 0x5, 0xC, 0xD, 0xE, 0xF]

/-- The rows of the opcode map in which the first byte is the whole instruction and its low half an operand (R93). -/
def shortRows : List (BitVec 4) := [0x6, 0x7, 0xA, 0xB] ++ scrRows

theorem instrLength_short : ∀ hi ∈ shortRows, ∀ lo, instrLength (shortByte hi lo) = 1 := by decide

/-- Every instruction has one, two or three bytes (R91). -/
theorem instrLength_cases (op : Byte) : instrLength op = 1 ∨ instrLength op = 2 ∨ instrLength op = 3 := by
  unfold instrLength
  split_ifs <;> simp

-- The rows of the opcode map: the upper half of the first byte chooses the row

section
variable (sw : Bool) (lo : BitVec 4) (b1 b2 : Byte)

theorem decodeBytes_row3 : decodeBytes sw (shortByte 0x3 lo) b1 b2 = decodeScrRow .dsR (shortByte 0x3 lo) := by
  simp [decodeBytes, shortByte_high]
theorem decodeBytes_row4 : decodeBytes sw (shortByte 0x4 lo) b1 b2 = decodeScrRow .lrAR (shortByte 0x4 lo) := by
  simp [decodeBytes, shortByte_high]
theorem decodeBytes_row5 : decodeBytes sw (shortByte 0x5 lo) b1 b2 = decodeScrRow .lrRA (shortByte 0x5 lo) := by
  simp [decodeBytes, shortByte_high]
theorem decodeBytes_row6 : decodeBytes sw (shortByte 0x6 lo) b1 b2 = decodeRow6 sw (shortByte 0x6 lo) := by
  simp [decodeBytes, shortByte_high]
theorem decodeBytes_row7 : decodeBytes sw (shortByte 0x7 lo) b1 b2 = decodeRow7 (shortByte 0x7 lo) := by
  simp [decodeBytes, shortByte_high]
theorem decodeBytes_rowA : decodeBytes sw (shortByte 0xA lo) b1 b2 = .insP lo := by
  simp [decodeBytes, shortByte_high, setWidth_shortByte]
theorem decodeBytes_rowB : decodeBytes sw (shortByte 0xB lo) b1 b2 = .outsP lo := by
  simp [decodeBytes, shortByte_high, setWidth_shortByte]
theorem decodeBytes_rowC : decodeBytes sw (shortByte 0xC lo) b1 b2 = decodeScrRow .asR (shortByte 0xC lo) := by
  simp [decodeBytes, shortByte_high]
theorem decodeBytes_rowD : decodeBytes sw (shortByte 0xD lo) b1 b2 = decodeScrRow .asdR (shortByte 0xD lo) := by
  simp [decodeBytes, shortByte_high]
theorem decodeBytes_rowE : decodeBytes sw (shortByte 0xE lo) b1 b2 = decodeScrRow .xsR (shortByte 0xE lo) := by
  simp [decodeBytes, shortByte_high]
theorem decodeBytes_rowF : decodeBytes sw (shortByte 0xF lo) b1 b2 = decodeScrRow .nsR (shortByte 0xF lo) := by
  simp [decodeBytes, shortByte_high]

theorem decodeRow7_lis {i : BitVec 4} (h : i ≠ 0) : decodeRow7 (shortByte 0x7 i) = .lis i := by
  simp only [decodeRow7, setWidth_shortByte]
  exact if_neg h

/-- Bit 3 of the low half against the switch decides between LISL and LISU (R94). -/
theorem decodeRow6_lisl : ∀ (sw : Bool) (bbb : BitVec 3),
    decodeRow6 sw (shortByte 0x6 (BitVec.ofBool (!sw) ++ bbb)) = .lisl bbb := by decide

theorem decodeRow6_lisu : ∀ (sw : Bool) (bbb : BitVec 3),
    decodeRow6 sw (shortByte 0x6 (BitVec.ofBool sw ++ bbb)) = .lisu bbb := by decide

/-- BT with a mask that has no mnemonic of its own (R106). -/
theorem decodeRow8_bt {t : BitVec 3} (h : (Instr.bt t b1).wellFormed = true) :
    instrLength (shortByte 0x8 (t.setWidth 4)) = 2 ∧
      decodeBytes sw (shortByte 0x8 (t.setWidth 4)) b1 b2 = .bt t b1 := by
  have mask : t ∈ [0, 3, 5, 6, 7] := by
    have unnamed : (!btNamedMasks.contains t) = true := h
    clear h
    revert t
    decide
  simp only [List.mem_cons, List.not_mem_nil, or_false] at mask
  obtain rfl | rfl | rfl | rfl | rfl := mask <;> exact ⟨rfl, rfl⟩

/-- BF with a mask that has no mnemonic of its own (R106). -/
theorem decodeRow9_bf {t : BitVec 4} (h : (Instr.bf t b1).wellFormed = true) :
    instrLength (shortByte 0x9 t) = 2 ∧ decodeBytes sw (shortByte 0x9 t) b1 b2 = .bf t b1 := by
  have mask : t ∈ [3, 5, 6, 7, 9, 10, 11, 12, 13, 14, 15] := by
    have unnamed : (!bfNamedMasks.contains t) = true := h
    clear h
    revert t
    decide
  simp only [List.mem_cons, List.not_mem_nil, or_false] at mask
  obtain rfl | rfl | rfl | rfl | rfl | rfl | rfl | rfl | rfl | rfl | rfl := mask <;> exact ⟨rfl, rfl⟩

/-- The ten bytes of R102 are one-byte words of `undefined`. -/
theorem decodeBytes_undefined {op : Byte} (h : op ∈ undefinedOpcodes) :
    instrLength op = 1 ∧ decodeBytes sw op b1 b2 = .undefined op := by
  simp only [undefinedOpcodes, List.mem_cons, List.not_mem_nil, or_false] at h
  obtain rfl | rfl | rfl | rfl | rfl | rfl | rfl | rfl | rfl | rfl := h <;> exact ⟨rfl, rfl⟩

end

/-- The operand bytes of a three-byte instruction, the upper first (R96, R68). -/
theorem extBytes_append (op hh ll : Byte) : extBytes op (hh ++ ll) = [op, hh, ll] := by
  have upper : (hh ++ ll : Word16).extractLsb' 8 8 = hh := BitVec.extractLsb'_append_eq_left
  have lower : (hh ++ ll : Word16).extractLsb' 0 8 = ll := BitVec.extractLsb'_append_eq_right
  rw [extBytes, upper, lower]

theorem exists_word_append (w : Word16) : ∃ hh ll : Byte, w = hh ++ ll :=
  ⟨w.extractLsb' 8 8, w.extractLsb' 0 8, (BitVec.extractLsb'_append_extractLsb' (w := 8) (len := 8) (x := w)).symm⟩

/-- Settles O1, by the shape of the instruction's words: a fixed first byte, alone or before its operand bytes, is read
off the opcode map; a first byte with an operand in its low half goes through the facts about its row. -/
theorem decodeOfEncodeIsTheInstruction : Obligations.DecodeOfEncodeIsTheInstruction := by
  intro sw i rest hwf
  have short : ∀ {hi lo : BitVec 4} {j : Instr},
      hi ∈ shortRows → (∀ b1 b2, decodeBytes sw (shortByte hi lo) b1 b2 = j) →
      decode sw (shortByte hi lo :: rest) = .ok (j, rest) := by
    intro hi lo j hhi hj
    rw [decode_one sw rest (instrLength_short hi hhi lo), hj]
  cases i with
  | asR r => exact short (by decide) fun _ _ => (decodeBytes_rowC ..).trans (decodeScrRow_field _ _ r)
  | asdR r => exact short (by decide) fun _ _ => (decodeBytes_rowD ..).trans (decodeScrRow_field _ _ r)
  | xsR r => exact short (by decide) fun _ _ => (decodeBytes_rowE ..).trans (decodeScrRow_field _ _ r)
  | nsR r => exact short (by decide) fun _ _ => (decodeBytes_rowF ..).trans (decodeScrRow_field _ _ r)
  | dsR r => exact short (by decide) fun _ _ => (decodeBytes_row3 ..).trans (decodeScrRow_field _ _ r)
  | lrAR r => exact short (by decide) fun _ _ => (decodeBytes_row4 ..).trans (decodeScrRow_field _ _ r)
  | lrRA r => exact short (by decide) fun _ _ => (decodeBytes_row5 ..).trans (decodeScrRow_field _ _ r)
  | lisl bbb => exact short (by decide) fun _ _ => (decodeBytes_row6 ..).trans (decodeRow6_lisl sw bbb)
  | lisu bbb => exact short (by decide) fun _ _ => (decodeBytes_row6 ..).trans (decodeRow6_lisu sw bbb)
  | lis i => exact short (by decide) fun _ _ => (decodeBytes_row7 ..).trans (decodeRow7_lis (bne_iff_ne.mp hwf))
  | insP p => exact short (by decide) fun _ _ => decodeBytes_rowA ..
  | outsP p => exact short (by decide) fun _ _ => decodeBytes_rowB ..
  | bt t d =>
    obtain ⟨hlen, hdec⟩ := decodeRow8_bt sw d (rest.getD 0 0) hwf
    exact (decode_two sw d rest hlen).trans (by rw [hdec])
  | bf t d =>
    obtain ⟨hlen, hdec⟩ := decodeRow9_bf sw d (rest.getD 0 0) hwf
    exact (decode_two sw d rest hlen).trans (by rw [hdec])
  | undefined op =>
    obtain ⟨hlen, hdec⟩ := decodeBytes_undefined sw (rest.getD 0 0) (rest.getD 1 0) (List.contains_iff_mem.mp hwf)
    exact (decode_one sw rest hlen).trans (by rw [hdec])
  | jmp w | pi w | dci w =>
    obtain ⟨hh, ll, rfl⟩ := exists_word_append w
    rw [encode, extBytes_append]
    exact decode_three sw hh ll rest rfl
  | ai d | ni d | ci d | xi d | oi d | li d | inP d | outP d | br d | bm d | bnc d | bno d | bnz d | br7 d | bc d | bp d
    | bz d => exact decode_two sw d rest rfl
  | _ => exact decode_one sw rest rfl

-- The other direction, row by row

/-- What O2 says of one first byte, the instruction read from it being `i`. -/
def RoundTrips (sw : Bool) (op b1 b2 : Byte) (i : Instr) : Prop :=
  i.wellFormed = true ∧ encode sw i = [op, b1, b2].take (instrLength op) ∧ i.length = instrLength op

section
variable (sw : Bool) (lo : BitVec 4) (b1 b2 : Byte)

/-- A case for each value of a half byte. -/
theorem halfByte_cases {P : BitVec 4 → Prop} (h0 : P 0x0) (h1 : P 0x1) (h2 : P 0x2) (h3 : P 0x3) (h4 : P 0x4)
    (h5 : P 0x5) (h6 : P 0x6) (h7 : P 0x7) (h8 : P 0x8) (h9 : P 0x9) (hA : P 0xA) (hB : P 0xB) (hC : P 0xC) (hD : P 0xD)
    (hE : P 0xE) (hF : P 0xF) : ∀ x, P x := by
  rintro ⟨x⟩
  fin_cases x <;> assumption

/-- A row of scratchpad operands gives back its field, and for 0xF the undefined byte itself. -/
theorem decodeScrRow_roundTrips {hi : BitVec 4} {f : Scr → Instr}
    (hrow : hi ∈ scrRows)
    (hf : ∀ r, (f r).wellFormed = true ∧ encode sw (f r) = [shortByte hi r.field] ∧ (f r).length = 1) :
    RoundTrips sw (shortByte hi lo) b1 b2 (decodeScrRow f (shortByte hi lo)) := by
  have hlen : instrLength (shortByte hi lo) = 1 :=
    instrLength_short hi (List.mem_append_right _ hrow) lo
  have field := map_field_scrOfField lo
  simp only [RoundTrips, hlen, decodeScrRow, shortByte_low]
  cases hr : scrOfField lo.toNat with
  | some r =>
    have hlo : r.field = lo := by
      rw [hr] at field
      split at field
      · cases field
      · exact Option.some.inj field
    obtain ⟨hwf, henc, hone⟩ := hf r
    exact ⟨hwf, by rw [henc, hlo]; rfl, hone⟩
  | none =>
    have hlo : lo = 0xF := by
      rw [hr] at field
      split at field
      · assumption
      · cases field
    subst hlo
    have undefined_byte : ∀ hi ∈ scrRows, undefinedOpcodes.contains (shortByte hi 0xF) = true := by decide
    exact ⟨undefined_byte hi hrow, rfl, rfl⟩

theorem decodeBytes_roundTrips (op : Byte) : RoundTrips sw op b1 b2 (decodeBytes sw op b1 b2) := by
  have scrRow : ∀ {hi : BitVec 4} {f : Scr → Instr}, hi ∈ scrRows →
      (∀ r, (f r).wellFormed = true ∧ encode sw (f r) = [shortByte hi r.field] ∧ (f r).length = 1) →
      ∀ lo, RoundTrips sw (shortByte hi lo) b1 b2 (decodeScrRow f (shortByte hi lo)) :=
    fun hrow hf lo => decodeScrRow_roundTrips sw lo b1 b2 hrow hf
  obtain ⟨hi, lo, rfl⟩ := exists_shortByte op
  revert hi lo
  apply halfByte_cases
  case h0 | h1 | h7 | h8 | h9 => apply halfByte_cases <;> exact ⟨rfl, rfl, rfl⟩
  case h2 =>
    apply halfByte_cases
    case h8 => exact ⟨rfl, extBytes_append 0x28 b1 b2, rfl⟩
    case h9 => exact ⟨rfl, extBytes_append 0x29 b1 b2, rfl⟩
    case hA => exact ⟨rfl, extBytes_append 0x2A b1 b2, rfl⟩
    all_goals exact ⟨rfl, rfl, rfl⟩
  case h6 => cases sw <;> apply halfByte_cases <;> exact ⟨rfl, rfl, rfl⟩
  all_goals intro lo
  case h3 => exact decodeBytes_row3 sw lo b1 b2 ▸ scrRow (by decide) (fun _ => ⟨rfl, rfl, rfl⟩) lo
  case h4 => exact decodeBytes_row4 sw lo b1 b2 ▸ scrRow (by decide) (fun _ => ⟨rfl, rfl, rfl⟩) lo
  case h5 => exact decodeBytes_row5 sw lo b1 b2 ▸ scrRow (by decide) (fun _ => ⟨rfl, rfl, rfl⟩) lo
  case hC => exact decodeBytes_rowC sw lo b1 b2 ▸ scrRow (by decide) (fun _ => ⟨rfl, rfl, rfl⟩) lo
  case hD => exact decodeBytes_rowD sw lo b1 b2 ▸ scrRow (by decide) (fun _ => ⟨rfl, rfl, rfl⟩) lo
  case hE => exact decodeBytes_rowE sw lo b1 b2 ▸ scrRow (by decide) (fun _ => ⟨rfl, rfl, rfl⟩) lo
  case hF => exact decodeBytes_rowF sw lo b1 b2 ▸ scrRow (by decide) (fun _ => ⟨rfl, rfl, rfl⟩) lo
  case hA =>
    rw [decodeBytes_rowA, RoundTrips, instrLength_short 0xA (by decide)]
    exact ⟨rfl, rfl, rfl⟩
  case hB =>
    rw [decodeBytes_rowB, RoundTrips, instrLength_short 0xB (by decide)]
    exact ⟨rfl, rfl, rfl⟩

end

/-- Settles O2, by the rows of the opcode map. -/
theorem encodeOfDecodeIsTheBytes : Obligations.EncodeOfDecodeIsTheBytes :=
  fun sw op b1 b2 => decodeBytes_roundTrips sw b1 b2 op

/-- Settles O4: the ten bytes are the only words of `undefined` that are well formed, and what is decoded is well
formed (O2). -/
theorem undefinedFirstBytesAreTheTen : Obligations.UndefinedFirstBytesAreTheTen := by
  intro sw op b1 b2
  refine ⟨fun h => (decodeBytes_undefined sw b1 b2 h).2, fun h => ?_⟩
  obtain ⟨hwf, _⟩ := encodeOfDecodeIsTheBytes sw op b1 b2
  rw [h] at hwf
  exact List.contains_iff_mem.mp hwf

/-- Settles O3, each word by O1's direction of the round trip: its bytes are the encoding of a well-formed
instruction. -/
theorem writtenOutWordsDecode : Obligations.WrittenOutWordsDecode := by
  have word : ∀ i : Instr, i.wellFormed = true → decode true (encode true i) = .ok (i, []) := fun i hwf => by
    simpa using decodeOfEncodeIsTheInstruction true i [] hwf
  exact ⟨word (.ai 0x34) rfl, word (.jmp 0x0180) rfl, word (.asR (.direct 3)) rfl, word (.lrRA .viaISInc) rfl,
    word (.br7 0xFD) rfl, word (.lisu 2) rfl, word (.outsP 15) rfl, word .lrWJ rfl⟩

/-- Bytes that the first byte does not call for do not matter: by O2 both terms have the same words, and by O1 those
words decode to one term. -/
theorem decodeBytes_congr {sw : Bool} {op b1 b2 c1 c2 : Byte} (h1 : 2 ≤ instrLength op → b1 = c1)
    (h2 : 3 ≤ instrLength op → b2 = c2) : decodeBytes sw op b1 b2 = decodeBytes sw op c1 c2 := by
  obtain ⟨hwf, henc, _⟩ := encodeOfDecodeIsTheBytes sw op b1 b2
  obtain ⟨hwf', henc', _⟩ := encodeOfDecodeIsTheBytes sw op c1 c2
  have words : [op, b1, b2].take (instrLength op) = [op, c1, c2].take (instrLength op) := by
    obtain hlen | hlen | hlen := instrLength_cases op
    · rw [hlen]
      rfl
    · rw [hlen, h1 hlen.ge]
      rfl
    · rw [hlen, h1 (by omega), h2 hlen.ge]
  have back := decodeOfEncodeIsTheInstruction sw _ [] hwf
  rw [henc, words, ← henc', decodeOfEncodeIsTheInstruction sw _ [] hwf'] at back
  exact (congrArg Prod.fst (Except.ok.inj back)).symm

end Sys2Proof
end

section
/-! PROOFS. What an instruction that completes leaves, said once for all instructions. `exec` asks whether a byte can be
read or stored in two places only, the memory operand and ST; `effect` is the state it leaves where the answer is yes, a
function of the instruction, the state and the byte at DC, and each rule about all instructions is a fact about
`effect`. -/

namespace Sys2Proof.Machine

/-- The next state of an outcome, `s` where it has none. -/
def stateOr (s : State) : Out → State
  | .next t => t
  | .fault _ | .refused _ => s

/-- What an instruction does with the byte at DC, once it is fetched and DC has moved on (R134, R234). -/
def memEffect (i : Instr) (n : State) (m : Byte) : State :=
  match i with
  | .lm => { n with a := m }
  | .am => n.setResult (add8 n.a m false)
  | .amd => n.setResult (bcdAdjust n.platform.bcdAdjust n.a m)
  | .nm => n.setLogic (n.a &&& m)
  | .om => n.setLogic (n.a ||| m)
  | .xm => n.setLogic (n.a ^^^ m)
  | .cm => { n with flags := (sub8 m n.a).2 }
  | _ => n

/-- The state instruction `i` leaves where it completes, `m` being the byte at DC for the instructions that read it. -/
def effect (i : Instr) (m : Byte) (s : State) : State :=
  match i with
  | .lm | .am | .amd | .nm | .om | .xm | .cm => { memEffect i (s.fetched 1).bumpDC m with intInhibit := false }
  | .st => { (s.fetched 1).bumpDC with mem := Memory.write s.mem s.dc.toNat s.a, intInhibit := false }
  | i => stateOr s (exec i s)

section
variable {i : Instr} {s t : State} {m : Byte}

-- `exec` by `effect`: the three kinds of instructions, and the bytes that are none

theorem exec_eq_withMemOperand (hi : i.readsMemory = true) : exec i s = withMemOperand s (memEffect i) := by
  cases i with
  | lm | am | amd | nm | om | xm | cm => rfl
  | _ => cases hi

theorem effect_eq_memEffect (hi : i.readsMemory = true) :
    effect i m s = { memEffect i (s.fetched 1).bumpDC m with intInhibit := false } := by
  cases i with
  | lm | am | amd | nm | om | xm | cm => rfl
  | _ => cases hi

/-- An instruction that reads the byte at DC and finds one. -/
theorem exec_of_read (hi : i.readsMemory = true) (hm : readMem s s.dc = .ok m) : exec i s = .next (effect i m s) := by
  rw [exec_eq_withMemOperand hi, withMemOperand_of_ok hm, effect_eq_memEffect hi]

/-- An instruction that reads the byte at DC and finds none. -/
theorem exec_of_read_error (hi : i.readsMemory = true) {e : Fault} (hm : readMem s s.dc = .error e) :
    exec i s = .fault e := by
  rw [exec_eq_withMemOperand hi, withMemOperand_of_error hm]

/-- ST to RAM. -/
theorem exec_st_of_ram (m : Byte) (h : kindAt s.platform s.dc = .ram) : exec .st s = .next (effect .st m s) := by
  have store : writeMem (s.fetched 1) s.dc s.a = _ := writeMem_of_ram h
  simp only [exec, execSt, store]
  rfl

/-- ST to anything else. -/
theorem exec_st_of_not_ram (h : kindAt s.platform s.dc ≠ .ram) : exec .st s = .refused (.storeNotRam s.dc) := by
  cases store : writeMem (s.fetched 1) s.dc s.a with
  | ok n => exact absurd (writeMem_ok store).1 h
  | error e => simp only [exec, execSt, store, (writeMem_error store).2]

/-- Every other instruction completes in every state. -/
theorem exec_of_plain (m : Byte) (hr : i.readsMemory = false) (hs : i ≠ .st) (hu : ∀ op, i ≠ .undefined op) :
    exec i s = .next (effect i m s) := by
  cases i with
  | lm | am | amd | nm | om | xm | cm => cases hr
  | st => exact absurd rfl hs
  | undefined op => exact absurd rfl (hu op)
  | _ => rfl

/-- What an instruction that completed did: it left `effect`, it read the byte at DC if it reads one, and it stored to
RAM if it stores. -/
theorem exec_next (h : exec i s = .next t) : ∃ m, t = effect i m s ∧
    (i.readsMemory = true → readMem s s.dc = .ok m) ∧ (i = .st → kindAt s.platform s.dc = .ram) ∧
    ∀ op, i ≠ .undefined op := by
  have defined : ∀ op, i ≠ .undefined op := by
    rintro op rfl
    cases h
  have left : ∀ {m}, exec i s = .next (effect i m s) → t = effect i m s := fun hm => by
    rw [hm] at h
    exact (Host.Outcome.next.inj h).symm
  by_cases hr : i.readsMemory = true
  · cases hm : readMem s s.dc with
    | ok m =>
      refine ⟨m, left (exec_of_read hr hm), fun _ => rfl, ?_, defined⟩
      rintro rfl
      cases hr
    | error e =>
      rw [exec_of_read_error hr hm] at h
      cases h
  · by_cases hs : i = .st
    · subst hs
      by_cases hk : kindAt s.platform s.dc = .ram
      · exact ⟨0, left (exec_st_of_ram 0 hk), fun hr' => absurd hr' hr, fun _ => hk, defined⟩
      · rw [exec_st_of_not_ram hk] at h
        cases h
    · exact ⟨0, left (exec_of_plain 0 (Bool.eq_false_iff.mpr hr) hs defined), fun hr' => absurd hr' hr,
        fun hs' => absurd hs' hs, defined⟩

end

-- One lemma per field: who may change it

section
variable (i : Instr) (m : Byte) (s : State)

@[simp] theorem effect_platform : (effect i m s).platform = s.platform := by
  cases i <;> rfl

/-- R326: the mark of the INT column. -/
theorem effect_intInhibit (hu : ∀ op, i ≠ .undefined op) : (effect i m s).intInhibit = i.privileged := by
  cases i with
  | undefined op => exact absurd rfl (hu op)
  | _ => rfl

theorem effect_mem (hi : i ≠ .st) : (effect i m s).mem = s.mem := by
  cases i with
  | st => exact absurd rfl hi
  | _ => rfl

theorem effect_readMem (hi : i ≠ .st) (a : Addr) : readMem (effect i m s) a = readMem s a :=
  readMem_congr (effect_mem i m s hi) (effect_platform i m s) a

theorem effect_icb (hi : (effect i m s).icb ≠ s.icb) : i = .di ∨ i = .ei ∨ i = .lrWJ := by
  cases i with
  | di | ei | lrWJ => simp
  | _ => exact absurd rfl hi

theorem effect_p (hi : (effect i m s).p ≠ s.p) : i = .pk ∨ i = .lrPK ∨ ∃ v, i = .pi v := by
  cases i with
  | pk | lrPK | pi v => simp
  | _ => exact absurd rfl hi

theorem effect_dc1 (hi : i ≠ .xdc) : (effect i m s).dc1 = s.dc1 := by
  cases i with
  | xdc => exact absurd rfl hi
  | _ => rfl

theorem effect_dc (hi : (effect i m s).dc ≠ s.dc) : i.readsMemory = true ∨ i = .st ∨ i = .adc ∨ i = .xdc ∨
    i = .lrDCQ ∨ i = .lrDCH ∨ ∃ v, i = .dci v := by
  cases i with
  | lm | am | amd | nm | om | xm | cm => exact .inl rfl
  | st | adc | xdc | lrDCQ | lrDCH | dci v => simp
  | _ => exact absurd rfl hi

/-- A scratchpad operand moves IS only in its last two forms (R98). -/
theorem scrNextIS_ne {r : Scr} {is : ScratchIdx} (h : scrNextIS r is ≠ is) : r = .viaISInc ∨ r = .viaISDec := by
  cases r with
  | viaISInc | viaISDec => simp
  | _ => exact absurd rfl h

theorem effect_is (hi : (effect i m s).is ≠ s.is) : i = .lrISA ∨ (∃ b, i = .lisl b) ∨ (∃ b, i = .lisu b) ∨
    ∃ r : Scr, (r = .viaISInc ∨ r = .viaISDec) ∧
      (i = .asR r ∨ i = .asdR r ∨ i = .nsR r ∨ i = .xsR r ∨ i = .dsR r ∨ i = .lrAR r ∨ i = .lrRA r) := by
  cases i with
  | lrISA | lisl b | lisu b => simp
  | asR r | asdR r | nsR r | xsR r | dsR r | lrAR r | lrRA r =>
    exact .inr (.inr (.inr ⟨r, scrNextIS_ne hi, by simp⟩))
  | _ => exact absurd rfl hi

theorem effect_a (hi : (effect i m s).a ≠ s.a) : i.flagRow = .arithmetic ∨ i.flagRow = .logical ∨
    i.flagRow = .rightShift ∨ i.readsMemory = true ∨ (∃ v, i = .jmp v) ∨ (∃ v, i = .pi v) ∨ i = .clr ∨ i = .lrAKU ∨
    i = .lrAKL ∨ i = .lrAQU ∨ i = .lrAQL ∨ (∃ r, i = .lrAR r) ∨ (∃ v, i = .li v) ∨ (∃ v, i = .lis v) ∨ i = .lrAIS := by
  cases i with
  | jmp v | pi v | clr | lrAKU | lrAKL | lrAQU | lrAQL | lrAR r | li v | lis v | lrAIS => simp
  | lnk | ai ii | inc | am | amd | asR r | asdR r => exact .inl rfl
  | com | ni ii | nm | nsR r | oi ii | om | xi ii | xm | xsR r | sl1 | sl4 | inP pp | insP p => exact .inr (.inl rfl)
  | sr1 | sr4 => exact .inr (.inr (.inl rfl))
  | lm => exact .inr (.inr (.inr (.inl rfl)))
  | _ => exact absurd rfl hi

/-- The compares, DS and ADC give their result elsewhere (R142, R150, R151, R153). -/
theorem effect_a_of_compare {v : Byte} {r : Scr} (hi : i = .ci v ∨ i = .cm ∨ i = .dsR r ∨ i = .adc) :
    (effect i m s).a = s.a := by
  obtain rfl | rfl | rfl | rfl := hi <;> rfl

/-- The register a scratchpad operand writes: IS's, or the one its field names. -/
theorem eq_scrIndex {r : Scr} {n is : ScratchIdx} (h : n = scrIndex r is) :
    (n = is ∧ ∀ k, r ≠ .direct k) ∨ ∃ k : Fin 12, n.toNat = k.val ∧ r = .direct k := by
  subst h
  cases r with
  | direct k =>
    have hk : k.val < 12 := k.isLt
    exact .inr ⟨k, Nat.mod_eq_of_lt (by omega), rfl⟩
  | _ => exact .inl ⟨rfl, by simp⟩

theorem eq_of_reg_setReg_ne {n k : ScratchIdx} {v : Byte} (h : (s.setReg n v).reg k ≠ s.reg k) : k = n :=
  not_not.mp fun hk => h (reg_setReg_other s v hk)

theorem eq_of_reg_setRegPair_ne {u l k : ScratchIdx} {v : Addr} (h : (s.setRegPair u l v).reg k ≠ s.reg k) :
    k = u ∨ k = l := by
  by_contra hk
  obtain ⟨hu, hl⟩ := not_or.mp hk
  exact h (reg_setRegPair_other s v hu hl)

theorem effect_reg {n : ScratchIdx} (hi : (effect i m s).reg n ≠ s.reg n) :
    (n = s.is ∧ ∃ r : Scr, (∀ k, r ≠ .direct k) ∧ (i = .lrRA r ∨ i = .dsR r)) ∨
    (∃ k : Fin 12, n.toNat = k.val ∧ (i = .lrRA (.direct k) ∨ i = .dsR (.direct k))) ∨
    (n = 12 ∧ (i = .lrKUA ∨ i = .lrKP)) ∨ (n = 13 ∧ (i = .lrKLA ∨ i = .lrKP)) ∨
    (n = 14 ∧ (i = .lrQUA ∨ i = .lrQDC)) ∨ (n = 15 ∧ (i = .lrQLA ∨ i = .lrQDC)) ∨
    ((n = 10 ∨ n = 11) ∧ i = .lrHDC) ∨ (n = 9 ∧ i = .lrJW) := by
  cases i with
  | lrRA r | dsR r =>
    obtain ⟨hn, hr⟩ | ⟨k, hn, rfl⟩ := eq_scrIndex (eq_of_reg_setReg_ne (s.fetched 1) hi)
    · exact .inl ⟨hn, r, hr, by simp⟩
    · exact .inr (.inl ⟨k, hn, by simp⟩)
  | lrKUA | lrKLA | lrQUA | lrQLA | lrJW =>
    have hn := eq_of_reg_setReg_ne (s.fetched 1) hi
    simp [hn, regKU, regKL, regQU, regQL, regJ]
  | lrKP | lrQDC | lrHDC =>
    have hn := eq_of_reg_setRegPair_ne (s.fetched 1) hi
    simp only [regKU, regKL, regQU, regQL, regHU, regHL] at hn
    obtain rfl | rfl := hn <;> simp
  | _ => exact absurd rfl hi

/-- The event a port access reports, none for the other instructions (R66, R67). -/
theorem effect_events : ∃ new, (effect i m s).events = s.events ++ new ∧ new.length ≤ 1 ∧
    ∀ source, Event.interrupt source ∉ new := by
  cases i with
  | inP | insP | outP | outsP => exact ⟨_, rfl, le_refl 1, by simp⟩
  | _ => exact ⟨[], (List.append_nil _).symm, Nat.zero_le 1, by simp⟩

/-- R30: outside the transfer group P0 moves past the instruction's bytes. -/
theorem effect_p0 (hi : i.transfersControl = false) (hu : ∀ op, i ≠ .undefined op) :
    (effect i m s).p0 = s.p0 + BitVec.ofNat addrBits i.length := by
  cases i with
  | br | bf | bm | bnc | bno | bnz | br7 | bc | bp | bt | bz | jmp | lrP0Q | pi | pk | pop => cases hi
  | undefined op => exact absurd rfl (hu op)
  | _ => rfl

/-- R35: an instruction other than XDC does the same with another DC1. -/
theorem effect_withDC1 (v : Addr) (hi : i ≠ .xdc) : effect i m (s.withDC1 v) = (effect i m s).withDC1 v := by
  cases i with
  | xdc => exact absurd rfl hi
  | _ => rfl

end

end Sys2Proof.Machine
end

section
/-! PROOFS. Reads, the fetch and the step (spec/20_memory.md section 1, spec/10_state.md section 6), and the interrupt
rules (spec/60_exceptions.md section 3). -/

namespace Sys2Proof.Machine

section
variable {s t : State}

-- A read of one byte

theorem Memory.read_of_not_listed {m : Memory} {a : Nat} (h : ∀ c ∈ m, c.1 ≠ a) : Memory.read m a = none := by
  induction m with
  | nil => rfl
  | cons c rest ih =>
    obtain ⟨hc, hrest⟩ := List.forall_mem_cons.mp h
    exact (if_neg hc).trans (ih hrest)

theorem Memory.read_of_first_listed {before after : Memory} {a : Nat} {v : Byte} (h : ∀ c ∈ before, c.1 ≠ a) :
    Memory.read (before ++ (a, v) :: after) a = some v := by
  induction before with
  | nil => exact if_pos rfl
  | cons c rest ih =>
    obtain ⟨hc, hrest⟩ := List.forall_mem_cons.mp h
    exact (if_neg hc).trans (ih hrest)

theorem readMem_of_unpopulated {a : Addr} (h : kindAt s.platform a = .unpopulated) :
    readMem s a = .error (.unpopulated a) := by
  simp only [readMem, h]

/-- Where the map has memory, the memory's list answers. -/
theorem readMem_of_populated {a : Addr} (h : kindAt s.platform a ≠ .unpopulated) :
    readMem s a = (Memory.read s.mem a.toNat).elim (.error (.unwritten a)) .ok := by
  unfold readMem
  cases hk : kindAt s.platform a with
  | unpopulated => exact absurd hk h
  | rom | ram => cases Memory.read s.mem a.toNat <;> rfl

/-- Settles O9: an unpopulated address faults, and at the others the list decides. -/
theorem readAnswersByTheMap : Obligations.ReadAnswersByTheMap := by
  intro s a
  refine ⟨readMem_of_unpopulated, fun hk hlist => ?_, fun hk before after v hmem hlist => ?_⟩
  · rw [readMem_of_populated hk, Memory.read_of_not_listed hlist]
    rfl
  · rw [readMem_of_populated hk, hmem, Memory.read_of_first_listed hlist]
    rfl

-- The fetch

theorem fetchOperand_of_lt {len k : Nat} (h : k < len) :
    fetchOperand s len k = readMem s (s.p0 + BitVec.ofNat addrBits k) := if_pos h

theorem fetchOperand_of_le {len k : Nat} (h : len ≤ k) : fetchOperand s len k = .ok 0 := if_neg (Nat.not_lt.mpr h)

/-- The byte a fetched instruction has at offset `k`, the read's answer where the first byte calls for it. -/
theorem fetchOperand_of_read {len k : Nat} {b : Byte}
    (h : k < len → readMem s (s.p0 + BitVec.ofNat addrBits k) = .ok b) :
    ∃ c, fetchOperand s len k = .ok c ∧ (k < len → c = b) := by
  by_cases hk : k < len
  · exact ⟨b, (fetchOperand_of_lt hk).trans (h hk), fun _ => rfl⟩
  · exact ⟨0, fetchOperand_of_le (Nat.le_of_not_lt hk), fun hk' => absurd hk' hk⟩

/-- With the bytes readable that the first one calls for, the fetch gives the instruction they decode to. -/
theorem fetchInstr_of_reads {op b1 b2 : Byte} (h0 : readMem s s.p0 = .ok op)
    (h1 : 2 ≤ instrLength op → readMem s (s.p0 + 1) = .ok b1)
    (h2 : 3 ≤ instrLength op → readMem s (s.p0 + 2) = .ok b2) :
    fetchInstr s = .ok (decodeBytes s.platform.lisEncodingAsPrinted op b1 b2) := by
  obtain ⟨c1, hc1, same1⟩ := fetchOperand_of_read h1
  obtain ⟨c2, hc2, same2⟩ := fetchOperand_of_read h2
  simp only [fetchInstr, h0, hc1, hc2]
  rw [decodeBytes_congr same1 same2]

-- The step

theorem step_of_accepted {source : IntSource} {vector : Addr} (h : acceptedInterrupt s = some (source, vector)) :
    step s = .next (enterInterrupt source vector s.passBoundary) := by
  simp only [step, h]

theorem step_of_fetched {i : Instr} (ha : acceptedInterrupt s = none) (hi : fetchInstr s = .ok i) :
    step s = exec i s.passBoundary := by
  simp only [step, ha, hi]

theorem step_of_fetch_error {e : Fault} (ha : acceptedInterrupt s = none) (he : fetchInstr s = .error e) :
    step s = .fault e := by
  simp only [step, ha, he]

/-- Settles O7: what `decode` makes of the three bytes is what the fetch makes of them. -/
theorem stepRunsTheDecodedInstruction : Obligations.StepRunsTheDecodedInstruction := by
  intro s op b1 b2 i rest ha h0 h1 h2 hdec
  rw [eq_decodeBytes_of_decode _ hdec]
  exact step_of_fetched ha (fetchInstr_of_reads h0 h1 h2)

/-- Settles O8, by which of the bytes is the first that cannot be read. -/
theorem fetchOfAbsentByteFaults : Obligations.FetchOfAbsentByteFaults := by
  intro s op b1 e ha
  refine ⟨fun h0 => ?_, fun h0 hlen h1 => ?_, fun h0 hlen h1 h2 => ?_⟩ <;> apply step_of_fetch_error ha
  · simp only [fetchInstr, h0]
  · have second : fetchOperand s (instrLength op) 1 = .error e := (fetchOperand_of_lt hlen).trans h1
    simp only [fetchInstr, h0, second]
  · have second : fetchOperand s (instrLength op) 1 = .ok b1 := (fetchOperand_of_lt (by omega)).trans h1
    have third : fetchOperand s (instrLength op) 2 = .error e := (fetchOperand_of_lt hlen).trans h2
    simp only [fetchInstr, h0, second, third]

/-- Settles O11: the meaning names the byte and P0, and reads nothing else. -/
theorem undefinedMeaningIsTheFault : Obligations.UndefinedMeaningIsTheFault := fun _ _ => rfl

/-- Settles O10: the byte is fetched alone, decodes to `undefined`, and the step is that term's meaning (O7, O11). -/
theorem undefinedFirstByteStopsTheStep : Obligations.UndefinedFirstByteStopsTheStep := by
  intro s op ha hop h0
  obtain ⟨hlen, hdec⟩ := decodeBytes_undefined s.platform.lisEncodingAsPrinted 0 0 hop
  have fetch := fetchInstr_of_reads (b1 := 0) (b2 := 0) h0 (fun h => by omega) (fun h => by omega)
  rw [step_of_fetched ha (fetch.trans (congrArg _ hdec))]
  exact undefinedMeaningIsTheFault s.passBoundary op

/-- Settles O6: no byte is listed at reset, so none is listed where the map has nothing. -/
theorem resetStateIsSound : Obligations.ResetStateIsSound :=
  ⟨rfl, rfl, rfl, reset_memory_wf, fun _ hc => absurd hc List.not_mem_nil⟩

-- Interrupts

/-- Settles O12: the search of IntVector stops at the first entry whose source requests. -/
theorem interruptAcceptance : Obligations.InterruptAcceptance := by
  intro s source vector
  have gate : acceptedInterrupt s = some (source, vector) ↔ s.icb = true ∧ s.intInhibit = false ∧
      s.platform.intVector.find? (fun e => (presented s).contains e.1) = some (source, vector) := by
    cases hc : s.icb <;> cases hh : s.intInhibit <;> simp [acceptedInterrupt, hc, hh]
  rw [gate, List.find?_eq_some_iff_append]
  simp

/-- Settles O13: the step is `enterInterrupt` after the boundary's request set is used up. -/
theorem interruptEntry : Obligations.InterruptEntry :=
  fun _ _ _ h => ⟨_, step_of_accepted h, rfl⟩

/-- Settles O15: EI and POP are both privileged, so each holds off the boundary after it. -/
theorem enableThenReturn : Obligations.EnableThenReturn := by
  intro s
  exact ⟨_, _, rfl, acceptedInterrupt_of_intInhibit rfl, rfl, acceptedInterrupt_of_intInhibit rfl, rfl, rfl, rfl⟩

/-- Settles O14: `effect` leaves the mark, and the mark holds off the boundary. -/
theorem privilegedMarkHoldsOffInterrupts : Obligations.PrivilegedMarkHoldsOffInterrupts := by
  intro i s t h
  obtain ⟨m, rfl, _, _, hu⟩ := exec_next h
  have mark := effect_intInhibit i m s hu
  exact ⟨mark, fun hp => acceptedInterrupt_of_intInhibit (mark.trans hp)⟩

/-- Settles O16: the two ways a step can go. -/
theorem icbChangesOnlyByItsWriters : Obligations.IcbChangesOnlyByItsWriters := by
  intro s t h hicb
  obtain ⟨source, vector, ha, _⟩ | ⟨_, i, hi, hx⟩ := step_next h
  · exact .inl (ha ▸ Option.some_ne_none _)
  · obtain ⟨m, rfl, _⟩ := exec_next hx
    exact .inr ⟨i, hi, effect_icb i m s.passBoundary hicb⟩

end

end Sys2Proof.Machine
end

section
/-! PROOFS. The whole-machine rules: what every step and every run keeps, and which instructions may change what. Each
is `step_next` and `exec_next`, which say what happened, and the field's lemma about `effect`. -/

namespace Sys2Proof.Machine

section
variable {s t : State}

-- Soundness

/-- Soundness is a matter of the memory and the map. -/
theorem sound_congr (hm : t.mem = s.mem) (hp : t.platform = s.platform) (h : s.Sound) : t.Sound := by
  rw [State.Sound, hm, hp]
  exact h

/-- A byte stored to RAM is inside Main Memory and stands at a populated address. -/
theorem sound_of_store {a : Addr} {v : Byte} (hm : t.mem = Memory.write s.mem a.toNat v) (hp : t.platform = s.platform)
    (hk : kindAt s.platform a = .ram) (h : s.Sound) : t.Sound := by
  obtain ⟨hwf, hlisted⟩ := h
  refine ⟨?_, fun c hc => ?_⟩
  · rw [hm]
    exact Memory.write_wf hwf a.isLt
  · rw [hm] at hc
    rw [hp]
    obtain rfl | hc := Memory.mem_write hc
    · rw [BitVec.ofNat_toNat, BitVec.setWidth_eq, hk]
      decide
    · exact hlisted c hc

/-- Settles O17: ST is the one writer of memory, and it writes to RAM. -/
theorem stepKeepsSound : Obligations.StepKeepsSound := by
  intro s t hs h
  obtain ⟨source, vector, _, rfl⟩ | ⟨_, i, _, hx⟩ := step_next h
  · exact sound_congr rfl rfl hs
  · obtain ⟨m, rfl, _, hram, _⟩ := exec_next hx
    by_cases hi : i = .st
    · subst hi
      exact sound_of_store rfl rfl (hram rfl) hs
    · exact sound_congr (effect_mem i m _ hi) (effect_platform i m _) hs

-- The platform and the bytes outside RAM

/-- A store changes what its own address reads as, and no other. -/
theorem readMem_of_store {a b : Addr} {v : Byte} (hm : t.mem = Memory.write s.mem a.toNat v)
    (hp : t.platform = s.platform) (hb : b ≠ a) : readMem t b = readMem s b := by
  have other : b.toNat ≠ a.toNat := fun e => hb (BitVec.eq_of_toNat_eq e)
  simp only [readMem, hm, hp, Memory.read_write_other _ _ _ _ other]

/-- One step keeps the platform and every byte outside RAM: the step of O18's induction. -/
theorem step_keepsPlatformAndRom (h : step s = .next t) :
    t.platform = s.platform ∧ ∀ a : Addr, kindAt s.platform a ≠ .ram → readMem t a = readMem s a := by
  obtain ⟨source, vector, _, rfl⟩ | ⟨_, i, _, hx⟩ := step_next h
  · exact ⟨rfl, fun a _ => readMem_congr rfl rfl a⟩
  · obtain ⟨m, rfl, _, hram, _⟩ := exec_next hx
    refine ⟨effect_platform i m _, fun a ha => ?_⟩
    by_cases hi : i = .st
    · subst hi
      refine readMem_of_store (a := s.dc) rfl rfl ?_
      rintro rfl
      exact ha (hram rfl)
    · exact effect_readMem i m s.passBoundary hi a

/-- A run of `k + 1` steps that completes is a step and a run of `k` steps. -/
theorem core_run_succ_next {k : Nat} (h : Sys2Proof.core.run (k + 1) s = .next t) :
    ∃ u, step s = .next u ∧ Sys2Proof.core.run k u = .next t := by
  have core_step : Sys2Proof.core.step s = step s := rfl
  cases hstep : step s with
  | next u =>
    simp only [Host.Core.run, core_step, hstep] at h
    exact ⟨u, rfl, h⟩
  | fault e | refused e => simp [Host.Core.run, core_step, hstep] at h

/-- Settles O18, by induction on the number of steps. -/
theorem runKeepsPlatformAndRom : Obligations.RunKeepsPlatformAndRom := by
  intro k
  induction k with
  | zero =>
    intro s t h
    obtain rfl : s = t := Host.Outcome.next.inj h
    exact ⟨rfl, fun _ _ => rfl⟩
  | succ k ih =>
    intro s t h
    obtain ⟨u, hstep, hrun⟩ := core_run_succ_next h
    obtain ⟨hp, hread⟩ := step_keepsPlatformAndRom hstep
    obtain ⟨hp', hread'⟩ := ih u t hrun
    exact ⟨hp'.trans hp, fun a ha => (hread' a (hp ▸ ha)).trans (hread a ha)⟩

-- Events

/-- Settles O19: an interrupt reports itself; an instruction reports a port access at most. -/
theorem stepReportsAtMostOneEvent : Obligations.StepReportsAtMostOneEvent := by
  intro s t h
  obtain ⟨source, vector, ha, rfl⟩ | ⟨ha, i, _, hx⟩ := step_next h
  · refine ⟨[.interrupt source], rfl, le_refl 1, fun source' => ?_⟩
    simp [ha, eq_comm]
  · obtain ⟨m, rfl, _⟩ := exec_next hx
    obtain ⟨new, hev, hlen, hnone⟩ := effect_events i m s.passBoundary
    refine ⟨new, hev, hlen, fun source => ?_⟩
    simp [ha, hnone]

-- Who may change what

/-- Settles O20: no other instruction touches the memory or the map, on which a read depends. -/
theorem memoryChangesOnlyByStore : Obligations.MemoryChangesOnlyByStore := by
  intro i s t hi h
  obtain ⟨m, rfl, _⟩ := exec_next h
  exact effect_readMem i m s hi

/-- Settles O21: one clause for each register. -/
theorem addressRegistersChangeOnlyByTheirWriters : Obligations.AddressRegistersChangeOnlyByTheirWriters := by
  intro i s t h
  obtain ⟨m, rfl, _⟩ := exec_next h
  exact ⟨effect_p i m s, fun hne => not_not.mp fun hi => hne (effect_dc1 i m s hi), effect_dc i m s, effect_is i m s⟩

/-- Settles O22: the writers of A, those of its row that leave it, and the writers of each register. -/
theorem accumulatorAndScratchpadChangeOnlyByTheirWriters :
    Obligations.AccumulatorAndScratchpadChangeOnlyByTheirWriters := by
  intro i s t h
  obtain ⟨m, rfl, _⟩ := exec_next h
  exact ⟨effect_a i m s, fun _ _ => effect_a_of_compare i m s, fun _ => effect_reg i m s⟩

/-- Settles O24: `effect` adds the length to P0, and an address is a number modulo 2^`addrBits`. -/
theorem sequentialInstructionsAdvanceP0 : Obligations.SequentialInstructionsAdvanceP0 := by
  intro i s t h hi
  obtain ⟨m, rfl, _, _, hu⟩ := exec_next h
  rw [effect_p0 i m s hi hu, BitVec.toNat_add, BitVec.toNat_ofNat, Nat.add_mod_mod]

-- Completion

/-- Settles O25, by the kind of instruction. -/
theorem everyInstructionCompletes : Obligations.EveryInstructionCompletes := by
  intro i s hu hread hram
  by_cases hr : i.readsMemory = true
  · obtain ⟨m, hm⟩ := hread hr
    exact ⟨_, exec_of_read hr hm⟩
  · by_cases hs : i = .st
    · subst hs
      exact ⟨_, exec_st_of_ram 0 (hram rfl)⟩
    · exact ⟨_, exec_of_plain 0 (Bool.eq_false_iff.mpr hr) hs hu⟩

/-- Settles O26: the two kinds of instructions that can stop. -/
theorem memoryOperandStops : Obligations.MemoryOperandStops :=
  fun _ _ => ⟨fun hr _ => exec_of_read_error hr, exec_st_of_not_ram⟩

/-- Settles O27: with another DC1 the same bytes are there, so each kind of instruction goes the same way, and `effect`
carries the other DC1 along. -/
theorem dc1IsInvisibleExceptToXDC : Obligations.DC1IsInvisibleExceptToXDC := by
  intro i s v hx
  have completes : ∀ {m}, exec i (s.withDC1 v) = .next (effect i m (s.withDC1 v)) → exec i s = .next (effect i m s) →
      exec i (s.withDC1 v) = mapNext (State.withDC1 · v) (exec i s) := by
    intro m h h'
    rw [h, h', effect_withDC1 i m s v hx]
    rfl
  by_cases hr : i.readsMemory = true
  · cases hm : readMem s s.dc with
    | ok m =>
      have hm' : readMem (s.withDC1 v) (s.withDC1 v).dc = .ok m := hm
      exact completes (exec_of_read hr hm') (exec_of_read hr hm)
    | error e =>
      have hm' : readMem (s.withDC1 v) (s.withDC1 v).dc = .error e := hm
      rw [exec_of_read_error hr hm', exec_of_read_error hr hm]
      rfl
  · by_cases hs : i = .st
    · subst hs
      by_cases hk : kindAt s.platform s.dc = .ram
      · exact completes (m := 0) (exec_st_of_ram 0 hk) (exec_st_of_ram 0 hk)
      · have hk' : kindAt (s.withDC1 v).platform (s.withDC1 v).dc ≠ .ram := hk
        rw [exec_st_of_not_ram hk', exec_st_of_not_ram hk]
        rfl
    · by_cases hu : ∀ op, i ≠ .undefined op
      · have plain : ∀ s, exec i s = .next (effect i 0 s) := fun _ => exec_of_plain 0 (Bool.eq_false_iff.mpr hr) hs hu
        exact completes (plain _) (plain _)
      · obtain ⟨op, rfl⟩ : ∃ op, i = .undefined op := by simpa using hu
        rfl

end

end Sys2Proof.Machine
end

section
/-! PROOFS. The Arithmetic and Logical Group beside the logical immediates and shifts (spec/41_arithmetic_logical.md),
and the flag table (spec/10_state.md R26). The arithmetic is in facts about bytes; the frame of each instruction holds
by the form of the state it leaves. -/

namespace Sys2Proof.Machine

-- Arithmetic facts about bytes

theorem toNat_compl (v : Byte) : (~~~v).toNat = 255 - v.toNat := by
  rw [BitVec.toNat_not]

theorem toInt_compl (v : Byte) : (~~~v).toInt = -v.toInt - 1 := by
  have hv : v.toNat < 256 := v.isLt
  rw [BitVec.toInt_eq_toNat_cond, BitVec.toInt_eq_toNat_cond, toNat_compl]
  split <;> split <;> omega

/-- R133: the flags of `x - y`, from those of the addition of the complement. -/
theorem sub8_flags (x y : Byte) : SubtractionFlags x y (sub8 x y).2 := by
  have hx : x.toNat < 256 := x.isLt
  have hy : y.toNat < 256 := y.isLt
  obtain ⟨hres, hc, ho, hz, hs⟩ := add8_addsTo x (~~~y) true
  rw [toNat_compl, Bool.toNat_true] at hres hc
  rw [toInt_compl, Bool.toNat_true] at ho
  refine ⟨hc.trans (by omega), hz.trans ?_, hs.trans (by omega), ho.trans (by omega)⟩
  have zero : (0 : Byte).toNat = 0 := rfl
  rw [← BitVec.toNat_inj, ← BitVec.toNat_inj, hres, zero]
  omega

/-- A decrement is the subtraction of 1: the two additions have the same sum and the same carries. -/
theorem dec8_eq_sub8 : ∀ v : Byte, dec8 v = sub8 v 1 := by decide

theorem toNat_adjustDigit (carry : Bool) (d : BitVec 4) :
    (adjustDigit carry d).toNat = if carry then d.toNat else (d.toNat + 10) % 16 := by
  cases carry
  · exact BitVec.toNat_add ..
  · rfl

/-- The carry out of the lower digit. -/
theorem halfCarry_eq (a b : Byte) : ((a.setWidth 4).setWidth 5 + (b.setWidth 4).setWidth 5 : BitVec 5).getLsbD 4 =
    decide (16 ≤ a.toNat % 16 + b.toNat % 16) := by
  simp only [BitVec.getLsbD, Nat.testBit_eq_decide_div_mod_eq, BitVec.toNat_add, BitVec.toNat_setWidth]
  rw [decide_eq_decide]
  omega

/-- R135 in numbers: the binary sum's flags, and the two digits of the result. -/
theorem decAdd_decimallyAdds (a b : Byte) : DecimallyAdds a b (decAdd a b).1 (decAdd a b).2 := by
  let sum := (add8 a b false).1
  have hsum : sum.toNat < 256 := sum.isLt
  let half : BitVec 5 := (a.setWidth 4).setWidth 5 + (b.setWidth 4).setWidth 5
  have digits : (decAdd a b).1 = shortByte (adjustDigit (add8 a b false).2.c (sum.extractLsb' 4 4))
      (adjustDigit (half.getLsbD 4) (sum.setWidth 4)) := rfl
  refine ⟨sum, add8_addsTo a b false, ?low, ?high⟩
  case low =>
    rw [digits, shortByte_low, toNat_adjustDigit, halfCarry_eq, BitVec.toNat_setWidth]
    simp only [decide_eq_true_eq]
    split <;> omega
  case high =>
    rw [digits, shortByte_high, toNat_adjustDigit, add8_c, BitVec.extractLsb'_toNat, Nat.shiftRight_eq_div_pow]
    simp only [decide_eq_true_eq, Bool.toNat_false, Nat.add_zero]
    split <;> omega

/-- One digit of a biased sum: where the digits add up to `n`, the adjusted digit is that of `n`. -/
theorem biasedDigit : ∀ n < 20, (if 10 ≤ n then (n + 6) % 16 else ((n + 6) % 16 + 10) % 16) = n % 10 := by decide

/-- The bias turns a decimal carry out of the lower digits into a binary one. -/
theorem biasedSum {x1 x0 y1 y0 : Nat} (hx0 : x0 < 10) (hy0 : y0 < 10) :
    ∃ r < 16, 16 * x1 + x0 + 0x66 + (16 * y1 + y0) = 16 * (x1 + y1 + (x0 + y0) / 10 + 6) + r := by
  have carry : x0 + y0 < 10 ∧ (x0 + y0) / 10 = 0 ∨ 10 ≤ x0 + y0 ∧ (x0 + y0) / 10 = 1 := by omega
  obtain ⟨_, hc⟩ | ⟨_, hc⟩ := carry
  · exact ⟨x0 + y0 + 6, by omega, by omega⟩
  · exact ⟨x0 + y0 - 10, by omega, by omega⟩

theorem decimalDigits (x1 x0 y1 y0 : Nat) : (10 * x1 + x0 + 10 * y1 + y0) / 10 = x1 + y1 + (x0 + y0) / 10 ∧
    (10 * x1 + x0 + 10 * y1 + y0) % 10 = (x0 + y0) % 10 := by
  omega

/-- On digits 0 to 9, one operand biased by 0x66, the decimal sum and its carry (R135). -/
theorem digits_of_decimallyAdds {a b res : Byte} {f : Flags} {x1 x0 y1 y0 : Nat} (h : DecimallyAdds a b res f)
    (hx1 : x1 < 10) (hx0 : x0 < 10) (hy1 : y1 < 10) (hy0 : y0 < 10)
    (ha : a = BitVec.ofNat 8 (16 * x1 + x0 + 0x66)) (hb : b = BitVec.ofNat 8 (16 * y1 + y0)) :
    res.toNat = 16 * (((10 * x1 + x0 + 10 * y1 + y0) / 10) % 10) + (10 * x1 + x0 + 10 * y1 + y0) % 10 ∧
      (f.c = true ↔ 100 ≤ 10 * x1 + x0 + 10 * y1 + y0) := by
  obtain ⟨sum, ⟨hsum, hc, -⟩, hlow, hhigh⟩ := h
  have ha' : a.toNat = 16 * x1 + x0 + 0x66 := by
    rw [ha, BitVec.toNat_ofNat]
    omega
  have hb' : b.toNat = 16 * y1 + y0 := by
    rw [hb, BitVec.toNat_ofNat]
    omega
  rw [Bool.toNat_false, Nat.add_zero, ha', hb'] at hsum hc
  rw [ha', hb'] at hlow hhigh
  obtain ⟨quotient, remainder⟩ := decimalDigits x1 x0 y1 y0
  refine ⟨?_, hc.trans (by omega)⟩
  have units : res.toNat % 16 = (x0 + y0) % 10 := by
    rw [hlow, ← biasedDigit (x0 + y0) (by omega)]
    exact if_congr (by omega) (by omega) (by omega)
  have tens : res.toNat / 16 = (x1 + y1 + (x0 + y0) / 10) % 10 := by
    have hn : x1 + y1 + (x0 + y0) / 10 < 20 := by omega
    obtain ⟨r, hr, total⟩ := biasedSum (x1 := x1) (y1 := y1) hx0 hy0
    rw [hhigh, hsum, total, ← biasedDigit _ hn]
    generalize x1 + y1 + (x0 + y0) / 10 = n at hn ⊢
    have sum_tens : (16 * (n + 6) + r) % 256 / 16 = (n + 6) % 16 := by omega
    rw [sum_tens]
    exact if_congr (by omega) rfl rfl
  rw [quotient, remainder, ← units, ← tens, Nat.div_add_mod]

-- The flag table (R26)

section
variable (i : Instr) (m : Byte) (s : State)

theorem effect_flags_of_unaltered (hi : i.flagRow = .unaltered) : (effect i m s).flags = s.flags := by
  cases i with
  | lnk | ai ii | inc | am | amd | asR r | asdR r | ci ii | cm | dsR r | com | ni ii | nm | nsR r | oi ii | om | xi ii
    | xm | xsR r | sl1 | sl4 | inP pp | insP p | sr1 | sr4 | lrWJ => cases hi
  | _ => rfl

theorem effect_flags_of_logical (hi : i.flagRow = .logical) : LogicalFlags (effect i m s).a (effect i m s).flags := by
  cases i with
  | com | ni ii | nm | nsR r | oi ii | om | xi ii | xm | xsR r | sl1 | sl4 | inP pp | insP p => exact logic8_flags _
  | _ => cases hi

theorem effect_flags_of_rightShift (hi : i.flagRow = .rightShift) :
    LogicalFlags (effect i m s).a (effect i m s).flags ∧ (effect i m s).flags.s = true := by
  cases i with
  | sr1 | sr4 => exact ⟨logic8_flags _, signFlag_ushiftRight s.a (by decide)⟩
  | _ => cases hi

theorem effect_flags_of_loaded (hi : i.flagRow = .loaded) : (effect i m s).flags = flagsOfByte (s.reg 9) := by
  cases i with
  | lrWJ => rfl
  | _ => cases hi

/-- The arithmetic row: the flags are the adder's for the instruction's addends, or for AMD and ASD those of the
platform's decimal add. -/
theorem effect_flags_of_arithmetic (hi : i.flagRow = .arithmetic)
    (hread : i.readsMemory = true → readMem s s.dc = .ok m) :
    ∃ x y cin, addends i s = some (x, y, cin) ∧ (i.decimal = false → (effect i m s).flags = (add8 x y cin).2) ∧
      (i.decimal = true → cin = false ∧ (effect i m s).flags = (bcdAdjust s.platform.bcdAdjust x y).2) := by
  cases i with
  | lnk | ai ii | inc | asR r | ci ii | dsR r => exact ⟨_, _, _, rfl, fun _ => rfl, fun hd => by cases hd⟩
  | asdR r => exact ⟨_, _, _, rfl, fun hd => by (cases hd), fun _ => ⟨rfl, rfl⟩⟩
  | am | cm => exact ⟨_, _, _, by rw [addends, hread rfl]; rfl, fun _ => rfl, fun hd => by cases hd⟩
  | amd => exact ⟨_, _, _, by rw [addends, hread rfl]; rfl, fun hd => by (cases hd), fun _ => ⟨rfl, rfl⟩⟩
  | _ => cases hi

end

/-- A zero result is a positive one: Z = 1 implies S = 1. -/
theorem sign_of_zero_of_addsTo {x y res : Byte} {cin : Bool} {f : Flags} (h : AddsTo x y cin res f) (hz : f.z = true) :
    f.s = true := by
  obtain ⟨_, _, _, zero, sign⟩ := h
  rw [sign, zero.mp hz]
  decide

theorem sign_of_zero_of_logicalFlags {res : Byte} {f : Flags} (h : LogicalFlags res f) (hz : f.z = true) :
    f.s = true := by
  obtain ⟨_, _, zero, sign⟩ := h
  rw [sign, zero.mp hz]
  decide

/-- Settles O23: one clause for each row, and the last by the row's numbers. -/
theorem flagsFollowTheTable : Obligations.FlagsFollowTheTable := by
  intro i s t h
  obtain ⟨m, rfl, hread, _, _⟩ := exec_next h
  have arithmetic : i.flagRow = .arithmetic → ∃ x y cin, addends i s = some (x, y, cin) ∧
      (i.decimal = false ∨ s.platform.bcdAdjust = .decAdd → ∃ res, AddsTo x y cin res (effect i m s).flags) ∧
      (i.decimal = true → (effect i m s).flags = (bcdAdjust s.platform.bcdAdjust x y).2) := by
    intro hi
    obtain ⟨x, y, cin, hxy, binary, decimal⟩ := effect_flags_of_arithmetic i m s hi hread
    refine ⟨x, y, cin, hxy, fun hd => ⟨(add8 x y cin).1, ?_⟩, fun hd => (decimal hd).2⟩
    have flags : (effect i m s).flags = (add8 x y cin).2 := by
      cases hdec : i.decimal with
      | false => exact binary hdec
      | true =>
        obtain ⟨rfl, hf⟩ := decimal hdec
        rw [hf, hd.resolve_left (by simp [hdec])]
        rfl
    exact flags ▸ add8_addsTo x y cin
  refine ⟨effect_flags_of_unaltered i m s, effect_flags_of_logical i m s, effect_flags_of_rightShift i m s,
    fun hi => ?_, arithmetic, fun hu hl hd => ?_⟩
  · rw [effect_flags_of_loaded i m s hi]
    exact ⟨rfl, rfl, rfl, rfl⟩
  · cases hi : i.flagRow with
    | arithmetic =>
      obtain ⟨_, _, _, _, adds, _⟩ := arithmetic hi
      obtain ⟨_, hadds⟩ := adds hd
      exact sign_of_zero_of_addsTo hadds
    | logical => exact sign_of_zero_of_logicalFlags (effect_flags_of_logical i m s hi)
    | rightShift => exact fun _ => (effect_flags_of_rightShift i m s hi).2
    | loaded => exact absurd hi hl
    | unaltered => exact absurd hi hu

-- The instructions

section
variable (s : State)

/-- DC moves on modulo the size of the address space (R34, R134). -/
theorem toNat_bumpDC : s.bumpDC.dc.toNat = (s.dc.toNat + 1) % 2 ^ addrBits := BitVec.toNat_add ..

/-- Settles O29: each leaves the adder's result of its addends. -/
theorem additionResults : Obligations.AdditionResults := by
  intro s ii m r
  exact ⟨⟨_, rfl, add8_addsTo s.a ii false, rfl⟩, ⟨_, rfl, add8_addsTo s.a 1 false, rfl⟩,
    ⟨_, rfl, add8_addsTo s.a 0 s.flags.c, rfl⟩,
    fun hm => ⟨_, exec_of_read rfl hm, add8_addsTo s.a m false, toNat_bumpDC s, rfl⟩,
    ⟨_, rfl, add8_addsTo s.a (s.scr r) false, rfl⟩⟩

/-- Settles O30: the compares keep the flags of the difference, DS also writes it back. -/
theorem subtractionResults : Obligations.SubtractionResults := by
  intro s ii m r
  refine ⟨⟨_, rfl, sub8_flags ii s.a, rfl⟩, fun hm => ⟨_, exec_of_read rfl hm, sub8_flags m s.a, toNat_bumpDC s, rfl⟩,
    ⟨_, rfl, ?value, fun n hn => reg_setReg_other (s.fetched 1) _ hn, ?flags, rfl⟩⟩
  case value =>
    have written := reg_setReg_same (s.fetched 1) (scrIndex r s.is) (dec8 (s.scr r)).1
    exact (congrArg BitVec.toNat written).trans (add8_toNat (s.scr r) 0xFF false)
  case flags => exact dec8_eq_sub8 (s.scr r) ▸ sub8_flags (s.scr r) 1

/-- Settles O32: A and the flags are the platform's decimal add, which at its default is R135's. -/
theorem decimalAdditionResults : Obligations.DecimalAdditionResults := by
  intro s m r
  have decimally : ∀ v, s.platform.bcdAdjust = .decAdd →
      DecimallyAdds s.a v (bcdAdjust s.platform.bcdAdjust s.a v).1 (bcdAdjust s.platform.bcdAdjust s.a v).2 :=
    fun v hp => hp ▸ decAdd_decimallyAdds s.a v
  exact ⟨fun hm => ⟨_, exec_of_read rfl hm, rfl, decimally m, toNat_bumpDC s, rfl⟩,
    ⟨_, rfl, rfl, decimally (s.scr r), rfl⟩⟩

/-- Settles O31, from what O32 says of the default, on digits. -/
theorem decimalAdditionOfDigits : Obligations.DecimalAdditionOfDigits := by
  intro s r x1 x0 y1 y0 hp hx1 hx0 hy1 hy0 ha
  obtain ⟨amd, t, hx, _, adds, _⟩ := decimalAdditionResults s (BitVec.ofNat 8 (16 * y1 + y0)) r
  refine ⟨fun hreg => ⟨t, hx, digits_of_decimallyAdds (adds hp) hx1 hx0 hy1 hy0 ha hreg⟩, fun hm => ?_⟩
  obtain ⟨u, hx', _, adds', _⟩ := amd hm
  exact ⟨u, hx', digits_of_decimallyAdds (adds' hp) hx1 hx0 hy1 hy0 ha rfl⟩

/-- Settles O34: `logic8` of the bitwise result, with DC or IS moved on. -/
theorem logicalMemoryAndScratchpadResults : Obligations.LogicalMemoryAndScratchpadResults := by
  intro s m r
  exact ⟨fun hm =>
      ⟨⟨_, exec_of_read rfl hm, fun _ _ => BitVec.getLsbD_and, logic8_flags (s.a &&& m), toNat_bumpDC s, rfl⟩,
      ⟨_, exec_of_read rfl hm, fun _ _ => BitVec.getLsbD_or, logic8_flags (s.a ||| m), toNat_bumpDC s, rfl⟩,
      ⟨_, exec_of_read rfl hm, fun _ _ => BitVec.getLsbD_xor, logic8_flags (s.a ^^^ m), toNat_bumpDC s, rfl⟩⟩,
    ⟨_, rfl, fun _ _ => BitVec.getLsbD_and, logic8_flags (s.a &&& s.scr r), rfl⟩,
    ⟨_, rfl, fun _ _ => BitVec.getLsbD_xor, logic8_flags (s.a ^^^ s.scr r), rfl⟩⟩

/-- An address plus a signed byte is a sum of integers, reduced to an address (R99, R142). -/
theorem add_sext16 (a : Addr) (v : Byte) : a + sext16 v = BitVec.ofInt addrBits (a.toNat + v.toInt) := by
  rw [BitVec.ofInt_add, BitVec.ofInt_natCast, BitVec.ofNat_toNat, BitVec.setWidth_eq]
  rfl

theorem toNat_add_sext16 (a : Addr) (v : Byte) :
    ((a + sext16 v).toNat : Int) = ((a.toNat : Int) + v.toInt) % 2 ^ addrBits := by
  rw [add_sext16, BitVec.toNat_ofInt, Int.toNat_of_nonneg (Int.emod_nonneg _ (by decide))]
  rfl

/-- Settles O36: the sum is that of the integers, and the flags are not among the fields the frame names. -/
theorem addToDataCounterResult : Obligations.AddToDataCounterResult :=
  fun s => ⟨_, rfl, toNat_add_sext16 s.dc s.a, rfl⟩

end

end Sys2Proof.Machine
end

section
/-! PROOFS. The Branch, Jump, Call and Return Group (spec/42_branch_jump_call_return.md) and the alternative mnemonics
(spec/30_encoding.md R106). Every relative branch is `branchIf` of its condition; the register pairs are two bytes of an
address, upper first. -/

namespace Sys2Proof.Machine

-- Relative branches

/-- R99 in numbers: the displacement counts from the address of its own byte. -/
theorem branchTarget_eq_relativeTarget (a : Addr) (d : Byte) : branchTarget (a + 2) d = relativeTarget a d := by
  have displacement_byte : a + 2 - 1 = a + BitVec.ofInt addrBits 1 := add_sub_assoc a 2 1
  rw [branchTarget, displacement_byte, relativeTarget, BitVec.ofInt_add, BitVec.ofInt_add, BitVec.ofInt_natCast,
    BitVec.ofNat_toNat, BitVec.setWidth_eq]
  rfl

/-- What O38 and O39 say of a branch whose condition holds exactly when `taken` does. -/
theorem branchIf_outcome {b : Bool} {taken : Prop} (s : State) (d : Byte) (h : b = true ↔ taken) :
    ∃ t, branchIf b d s = .next t ∧ branchOutcome s.p0 d taken t.p0 ∧
      t = { s with p0 := t.p0, intInhibit := t.intInhibit } := by
  refine ⟨_, rfl, ⟨fun ht => ?_, fun hn => ?_⟩, rfl⟩
  · obtain rfl : b = true := h.mpr ht
    exact branchTarget_eq_relativeTarget s.p0 d
  · obtain rfl : b = false := Bool.eq_false_iff.mpr fun hb => hn (h.mp hb)
    refine BitVec.eq_of_toNat_eq ?_
    rw [BitVec.toNat_ofNat]
    exact BitVec.toNat_add ..

/-- R181: some flag under the mask is 1. -/
theorem btTaken_iff (t : BitVec 3) (f : Flags) : btTaken t f = true ↔
    (t.getLsbD 2 = true ∧ f.z = true) ∨ (t.getLsbD 1 = true ∧ f.c = true) ∨ (t.getLsbD 0 = true ∧ f.s = true) := by
  obtain ⟨o, z, c, s⟩ := f
  revert t o z c s
  decide

/-- R182: every flag under the mask is 0. -/
theorem bfTaken_iff (t : BitVec 4) (f : Flags) : bfTaken t f = true ↔
    (t.getLsbD 3 = true → f.o = false) ∧ (t.getLsbD 2 = true → f.z = false) ∧
      (t.getLsbD 1 = true → f.c = false) ∧ (t.getLsbD 0 = true → f.s = false) := by
  obtain ⟨o, z, c, s⟩ := f
  revert t o z c s
  decide

/-- R188: ISL is not 7. -/
theorem br7Taken_iff : ∀ is : ScratchIdx, br7Taken is = true ↔ is.toNat % 8 ≠ 7 := by decide

/-- Settles O38: each is `branchIf` of its condition, which the three lemmas above put in the statement's words. -/
theorem conditionalBranchResults : Obligations.ConditionalBranchResults := fun s t3 t4 d =>
  ⟨branchIf_outcome s d (btTaken_iff t3 s.flags), branchIf_outcome s d (bfTaken_iff t4 s.flags),
    branchIf_outcome s d (br7Taken_iff s.is)⟩

/-- Settles O39: each is `branchIf` of one flag, as it is or negated. -/
theorem namedBranchResults : Obligations.NamedBranchResults := by
  intro s d i taken hi
  simp only [List.mem_cons, List.not_mem_nil, or_false, Prod.mk.injEq] at hi
  obtain ⟨rfl, rfl⟩ | ⟨rfl, rfl⟩ | ⟨rfl, rfl⟩ | ⟨rfl, rfl⟩ | ⟨rfl, rfl⟩ | ⟨rfl, rfl⟩ | ⟨rfl, rfl⟩ | ⟨rfl, rfl⟩ := hi
  · exact branchIf_outcome (b := true) s d (by simp)
  · exact branchIf_outcome (b := !s.flags.s) s d (by simp)
  · exact branchIf_outcome (b := !s.flags.c) s d (by simp)
  · exact branchIf_outcome (b := !s.flags.o) s d (by simp)
  · exact branchIf_outcome (b := !s.flags.z) s d (by simp)
  · exact branchIf_outcome (b := s.flags.c) s d Iff.rfl
  · exact branchIf_outcome (b := s.flags.s) s d Iff.rfl
  · exact branchIf_outcome (b := s.flags.z) s d Iff.rfl

/-- Two branches whose conditions hold together are one. -/
theorem branchIf_congr {b c : Bool} (s : State) (d : Byte) (h : b = true ↔ c = true) :
    branchIf b d s = branchIf c d s :=
  congrArg (branchIf · d s) (Bool.eq_iff_iff.mpr h)

/-- Settles O5: the words are the same bytes, and each name's condition is its mask's. -/
theorem namedMnemonicsAreTheirBaseInstruction : Obligations.NamedMnemonicsAreTheirBaseInstruction := by
  intro sw d s
  have bt : ∀ t {b : Bool}, (b = true ↔ _) → branchIf b d s = branchIf (btTaken t s.flags) d s :=
    fun t _ h => branchIf_congr s d (h.trans (btTaken_iff t s.flags).symm)
  have bf : ∀ t {b : Bool}, (b = true ↔ _) → branchIf b d s = branchIf (bfTaken t s.flags) d s :=
    fun t _ h => branchIf_congr s d (h.trans (bfTaken_iff t s.flags).symm)
  exact ⟨⟨rfl, bt 1 (by simp)⟩, ⟨rfl, bt 2 (by simp)⟩, ⟨rfl, bt 4 (by simp)⟩, ⟨rfl, bf 0 (by simp)⟩,
    ⟨rfl, bf 1 (by simp)⟩, ⟨rfl, bf 2 (by simp)⟩, ⟨rfl, bf 4 (by simp)⟩, ⟨rfl, bf 8 (by simp)⟩, rfl, rfl⟩

/-- Settles O28: the displacement FF goes back by one from its own address, which is P0 again. -/
theorem branchToSelfIsAFixedPoint : Obligations.BranchToSelfIsAFixedPoint := by
  intro s hinh hreq h0 h1
  have no_interrupt : acceptedInterrupt s = none := by simp [acceptedInterrupt, presented, hreq]
  have fetch : fetchInstr s = .ok (.br 0xFF) := fetchInstr_of_reads (b2 := 0) h0 (fun _ => h1) nofun
  have left : exec (.br 0xFF) s.passBoundary =
      .next { s with p0 := branchTarget (s.p0 + 2) 0xFF, intInhibit := false, requests := s.requests.tail } := rfl
  have back : branchTarget (s.p0 + 2) 0xFF = s.p0 := by
    have minus_one : sext16 0xFF = -1 := by decide
    rw [branchTarget, minus_one]
    ring
  rw [step_of_fetched no_interrupt fetch, left, back, hreq, List.tail_nil, ← hinh, ← hreq]

-- Register pairs

/-- Two words side by side, as a number. -/
theorem toNat_append_eq_add {v w : Nat} (u : BitVec v) (l : BitVec w) : (u ++ l).toNat = 2 ^ w * u.toNat + l.toNat := by
  rw [BitVec.toNat_append, ← Nat.shiftLeft_add_eq_or_of_lt l.isLt, Nat.shiftLeft_eq, Nat.mul_comm]

/-- R23 in numbers. -/
theorem pairAddr_eq_pairValue (u l : Byte) : pairAddr u l = pairValue u l := by
  have hu : u.toNat < 256 := u.isLt
  have hl : l.toNat < 256 := l.isLt
  have size : 2 ^ addrBits = 65536 := rfl
  have fits : 256 * u.toNat + l.toNat < 2 ^ addrBits := by omega
  refine BitVec.eq_of_toNat_eq ?_
  rw [pairAddr, addrOf, BitVec.setWidth_eq, toNat_append_eq_add, pairValue, BitVec.toNat_ofNat, Nat.mod_eq_of_lt fits]
  rfl

theorem upperByte_append (u l : Byte) : upperByte (u ++ l) = u := BitVec.extractLsb'_append_eq_left

/-- The two bytes of an address, put together again. -/
theorem pairAddr_upper_lower (a : Addr) : pairAddr (upperByte (wordOf a)) (lowerByte (wordOf a)) = a :=
  BitVec.extractLsb'_append_extractLsb' (w := 8) (len := 8) (x := a)

/-- Settles O40: a pair of bytes is the address of their numbers, and P saves P0 past the instruction. -/
theorem jumpCallReturnResults : Obligations.JumpCallReturnResults := by
  intro s hh ll
  exact ⟨⟨_, rfl, pairAddr_eq_pairValue hh ll, upperByte_append hh ll, rfl⟩,
    ⟨_, rfl, pairAddr_eq_pairValue (s.reg 14) (s.reg 15), rfl⟩,
    ⟨_, rfl, pairAddr_eq_pairValue hh ll, upperByte_append hh ll, BitVec.toNat_add .., rfl⟩,
    ⟨_, rfl, pairAddr_eq_pairValue (s.reg 12) (s.reg 13), BitVec.toNat_add .., rfl⟩,
    ⟨_, rfl, rfl, rfl⟩⟩

/-- Settles O41: LR K,P puts the return address into K, and both ways back read it there. -/
theorem secondLevelReturn : Obligations.SecondLevelReturn := by
  intro s iiii
  refine ⟨_, _, rfl, rfl, fun v hu hl => ?_⟩
  have upper : v.reg 12 = upperByte (wordOf (s.p0 + 3)) := hu.trans (reg_setRegPair_upper _ _ (by decide))
  have lower : v.reg 13 = lowerByte (wordOf (s.p0 + 3)) := hl.trans (reg_setRegPair_lower _ _ _ _)
  have back : v.regPair regKU regKL = s.p0 + 3 := by
    rw [State.regPair, regKU, regKL, upper, lower, pairAddr_upper_lower]
  have value : (v.regPair regKU regKL).toNat = (s.p0.toNat + 3) % 2 ^ addrBits := by
    rw [back]
    exact BitVec.toNat_add ..
  exact ⟨⟨_, _, rfl, rfl, value⟩, ⟨_, rfl, value⟩⟩

end Sys2Proof.Machine
end

section
/-! PROOFS. Data movement, address registers, input and output, CPU control and the times (spec/43 to spec/46,
spec/70 section 3). -/

namespace Sys2Proof.Machine

-- IS and its halves (R28, R29)

theorem toNat_append_halves (u l : BitVec 3) : (u ++ l : ScratchIdx).toNat = 8 * u.toNat + l.toNat :=
  toNat_append_eq_add u l

theorem toNat_isUpper (is : ScratchIdx) : (isUpper is).toNat = is.toNat / 8 := by
  have his : is.toNat < 64 := is.isLt
  rw [isUpper, BitVec.extractLsb'_toNat, Nat.shiftRight_eq_div_pow]
  omega

theorem toNat_isLower (is : ScratchIdx) : (isLower is).toNat = is.toNat % 8 := BitVec.toNat_setWidth ..

/-- R98, R29: ISL goes up by one modulo 8, ISU stays. -/
theorem toNat_scrNextIS_inc (is : ScratchIdx) :
    (scrNextIS .viaISInc is).toNat = 8 * (is.toNat / 8) + (is.toNat % 8 + 1) % 8 := by
  rw [scrNextIS, toNat_append_halves, BitVec.toNat_add, toNat_isUpper, toNat_isLower]
  rfl

/-- R98, R29: ISL goes down by one modulo 8 (D6), ISU stays. -/
theorem toNat_scrNextIS_dec (is : ScratchIdx) :
    (scrNextIS .viaISDec is).toNat = 8 * (is.toNat / 8) + (is.toNat % 8 + 7) % 8 := by
  rw [scrNextIS, toNat_append_halves, BitVec.toNat_sub, toNat_isUpper, toNat_isLower, Nat.add_comm (is.toNat % 8)]
  rfl

theorem toNat_scrIndex_direct (n : Fin 12) (is : ScratchIdx) : (scrIndex (.direct n) is).toNat = n.val := by
  have hn : n.val < 12 := n.isLt
  rw [scrIndex, BitVec.toNat_ofNat, Nat.mod_eq_of_lt (by omega)]

/-- Settles O37: the two moves show the operand's register, and the four forms are the two tables in numbers. -/
theorem scratchpadOperandForms : Obligations.ScratchpadOperandForms := by
  intro s n r
  exact ⟨⟨_, rfl, rfl, rfl⟩,
    ⟨_, rfl, reg_setReg_same (s.fetched 1) _ s.a, fun _ hk => reg_setReg_other (s.fetched 1) s.a hk, rfl⟩,
    ⟨toNat_scrIndex_direct n s.is, rfl⟩, ⟨rfl, rfl⟩, ⟨rfl, toNat_scrNextIS_inc s.is⟩, ⟨rfl, toNat_scrNextIS_dec s.is⟩⟩

/-- Settles O47: IS is two octal digits, and the moves with A cut it from a byte or extend it to one. -/
theorem scratchpadPointerLoads : Obligations.ScratchpadPointerLoads := by
  intro s b
  have lisl : (isUpper s.is ++ b : ScratchIdx).toNat = 8 * (s.is.toNat / 8) + b.toNat := by
    rw [toNat_append_halves, toNat_isUpper]
  have lisu : (b ++ isLower s.is : ScratchIdx).toNat = 8 * b.toNat + s.is.toNat % 8 := by
    rw [toNat_append_halves, toNat_isLower]
  exact ⟨⟨_, rfl, lisl, rfl⟩, ⟨_, rfl, lisu, rfl⟩, ⟨_, rfl, BitVec.toNat_setWidth .., rfl⟩,
    ⟨_, rfl, BitVec.toNat_setWidth_of_le (by decide), rfl⟩⟩

-- Main Memory

/-- A byte stored at a populated address is the byte read there (R63, R76). -/
theorem readMem_stored {s t : State} {a : Addr} {v : Byte} (hm : t.mem = Memory.write s.mem a.toNat v)
    (hk : kindAt t.platform a ≠ .unpopulated) : readMem t a = .ok v := by
  rw [readMem_of_populated hk, hm, Memory.read_write_same]
  rfl

/-- Settles O44: the list reads back what was written, and at every other address what it held before. -/
theorem loadAndStore : Obligations.LoadAndStore := by
  intro s m
  refine ⟨fun hm => ⟨_, exec_of_read rfl hm, rfl, toNat_bumpDC s, rfl⟩, fun hk => ?_⟩
  have populated : kindAt s.platform s.dc ≠ .unpopulated := by
    rw [hk]
    decide
  exact ⟨_, exec_st_of_ram 0 hk, readMem_stored (s := s) rfl populated,
    fun a ha => readMem_of_store (s := s) rfl rfl ha, toNat_bumpDC s, rfl⟩

-- Address registers

/-- Settles O45: an operand or a pair of registers is the address of its two bytes. -/
theorem addressRegisterLoads : Obligations.AddressRegisterLoads := by
  intro s hh ll
  exact ⟨⟨_, rfl, pairAddr_eq_pairValue hh ll, rfl⟩, ⟨_, rfl, rfl⟩,
    ⟨_, rfl, pairAddr_eq_pairValue (s.reg 14) (s.reg 15), rfl⟩,
    ⟨_, rfl, pairAddr_eq_pairValue (s.reg 10) (s.reg 11), rfl⟩,
    ⟨_, rfl, pairAddr_eq_pairValue (s.reg 12) (s.reg 13), rfl⟩⟩

theorem toNat_upperByte (v : Addr) : (upperByte (wordOf v)).toNat = v.toNat / 256 := by
  have hv : v.toNat < 65536 := v.isLt
  rw [wordOf, BitVec.setWidth_eq, upperByte, BitVec.extractLsb'_toNat, Nat.shiftRight_eq_div_pow]
  omega

theorem toNat_lowerByte (v : Addr) : (lowerByte (wordOf v)).toNat = v.toNat % 256 := by
  rw [wordOf, BitVec.setWidth_eq, lowerByte, BitVec.extractLsb'_toNat]
  rfl

/-- What O46 says of the store of `v` to a pair, once its next state is known. -/
theorem storePair_effect {i : Instr} {s : State} {u l : ScratchIdx} {v : Addr} (hul : u ≠ l)
    (h : exec i s = .next { (s.fetched 1).setRegPair u l v with intInhibit := false }) :
    ∃ t, exec i s = .next t ∧ (t.reg u).toNat = v.toNat / 256 ∧ (t.reg l).toNat = v.toNat % 256 ∧
      (∀ k, k ≠ u → k ≠ l → t.reg k = s.reg k) ∧
      t = { s with p0 := t.p0, intInhibit := t.intInhibit, scratch := t.scratch } := by
  have upper := congrArg BitVec.toNat (reg_setRegPair_upper (s.fetched 1) v hul)
  have lower := congrArg BitVec.toNat (reg_setRegPair_lower (s.fetched 1) u l v)
  exact ⟨_, h, upper.trans (toNat_upperByte v), lower.trans (toNat_lowerByte v),
    fun _ hu hl => reg_setRegPair_other (s.fetched 1) v hu hl, rfl⟩

/-- Settles O46: each of the three is the same store, of another register to another pair. -/
theorem addressRegisterStores : Obligations.AddressRegisterStores := by
  intro s i v u l hi
  simp only [List.mem_cons, List.not_mem_nil, or_false, Prod.mk.injEq] at hi
  obtain ⟨rfl, rfl, rfl, rfl⟩ | ⟨rfl, rfl, rfl, rfl⟩ | ⟨rfl, rfl, rfl, rfl⟩ := hi <;>
    exact storePair_effect (by decide) rfl

-- Input and output

/-- What O48 says of an input from a port, once its next state is known. -/
theorem input_effect {i : Instr} {s : State} {n : Nat} {port : Byte}
    (h : exec i s = .next { inputFrom port (s.fetched n) with intInhibit := false }) :
    ∃ t, exec i s = .next t ∧ LogicalFlags t.a t.flags ∧
      (∀ v later, s.portIn = v :: later → t.a = v ∧ t.portIn = later) ∧ (s.portIn = [] → t.portIn = []) ∧
      t.events = s.events ++ [.portRead port t.a] ∧ t.portReads = s.portReads + 1 ∧
      t = { s with p0 := t.p0, intInhibit := t.intInhibit, a := t.a, flags := t.flags, portIn := t.portIn,
                   portReads := t.portReads, events := t.events } := by
  refine ⟨_, h, logic8_flags _, fun v later hin => ?_, fun hin => ?_, rfl, rfl, rfl⟩
  · simp [portAnswer, hin]
  · simp [hin]

/-- Settles O48: both forms are one input, the short form's port number being its operand. -/
theorem inputResults : Obligations.InputResults := by
  intro s pp p i port hi
  simp only [List.mem_cons, List.not_mem_nil, or_false, Prod.mk.injEq] at hi
  obtain ⟨rfl, rfl⟩ | ⟨rfl, rfl⟩ := hi
  · exact input_effect (n := 2) rfl
  · rw [BitVec.ofNat_toNat]
    exact input_effect (n := 1) rfl

/-- Settles O49: both forms report A at their port, the short form's number being its operand. -/
theorem outputResults : Obligations.OutputResults := by
  intro s pp p i port hi
  simp only [List.mem_cons, List.not_mem_nil, or_false, Prod.mk.injEq] at hi
  obtain ⟨rfl, rfl⟩ | ⟨rfl, rfl⟩ := hi
  · exact ⟨_, rfl, rfl⟩
  · rw [BitVec.ofNat_toNat]
    exact ⟨_, rfl, rfl⟩

-- CPU control

/-- Settles O50: the state left is the state before but for ICB and the two fields of every instruction. -/
theorem interruptEnableControl : Obligations.InterruptEnableControl := fun _ => ⟨⟨_, rfl, rfl⟩, ⟨_, rfl, rfl⟩⟩

/-- The five bits of W in a byte, in numbers (R25, D7). -/
theorem toNat_statusOfByte : ∀ v : Byte, 16 * (icbOfByte v).toNat + 8 * (flagsOfByte v).o.toNat +
    4 * (flagsOfByte v).z.toNat + 2 * (flagsOfByte v).c.toNat + (flagsOfByte v).s.toNat = v.toNat % 32 := by decide

/-- W as a byte, in numbers (R25, D7). -/
theorem toNat_packW (icb : Bool) (f : Flags) : ((packW icb f).setWidth 8).toNat =
    16 * icb.toNat + 8 * f.o.toNat + 4 * f.z.toNat + 2 * f.c.toNat + f.s.toNat := by
  obtain ⟨o, z, c, s⟩ := f
  revert icb o z c s
  decide

/-- W packed into a byte and taken apart again. -/
theorem statusOfByte_packW (icb : Bool) (f : Flags) : flagsOfByte ((packW icb f).setWidth 8) = f ∧
    icbOfByte ((packW icb f).setWidth 8) = icb := by
  obtain ⟨o, z, c, s⟩ := f
  revert icb o z c s
  decide

/-- Settles O51: the five bits of W are the low five of the byte, in both directions. -/
theorem statusRegisterMoves : Obligations.StatusRegisterMoves := by
  intro s
  have saved := congrArg BitVec.toNat (reg_setReg_same (s.fetched 1) regJ ((packW s.icb s.flags).setWidth 8))
  exact ⟨⟨_, rfl, toNat_statusOfByte (s.reg 9), rfl⟩,
    ⟨_, rfl, saved.trans (toNat_packW s.icb s.flags), fun _ hk => reg_setReg_other (s.fetched 1) _ hk, rfl⟩⟩

/-- Settles O52: LR W,J takes apart what LR J,W packed, while J keeps it. -/
theorem statusSaveAndRestore : Obligations.StatusSaveAndRestore := by
  intro s
  refine ⟨_, rfl, fun u hu => ⟨_, rfl, ?_⟩⟩
  have kept : u.reg regJ = (packW s.icb s.flags).setWidth 8 := hu.trans (reg_setReg_same (s.fetched 1) regJ _)
  have restored := statusOfByte_packW s.icb s.flags
  rw [← kept] at restored
  exact restored

-- Times

/-- What O54 says of a row whose letters add up. -/
theorem cycleSum_of_whole_row {i : Instr} {cycles : List Cycle} {t : Nat} (hi : cycleCellTruncated i = false)
    (h : (cycles.map Cycle.micros).sum = t) : (cycleCellTruncated i = false → (cycles.map Cycle.micros).sum = t) ∧
      (cycleCellTruncated i = true → (cycles.map Cycle.micros).sum < t) :=
  ⟨fun _ => h, fun h' => absurd h' (by simp [hi])⟩

/-- What O54 says of a row that the source truncates (R372). -/
theorem cycleSum_of_truncated_row {i : Instr} {cycles : List Cycle} {t : Nat} (hi : cycleCellTruncated i = true)
    (h : (cycles.map Cycle.micros).sum < t) : (cycleCellTruncated i = false → (cycles.map Cycle.micros).sum = t) ∧
      (cycleCellTruncated i = true → (cycles.map Cycle.micros).sum < t) :=
  ⟨fun h' => absurd h' (by simp [hi]), fun _ => h⟩

/-- Settles O54, row by row: a branch has a row for each of its two ways, a short port access one for each pair of
ports. -/
theorem cycleSumsMatchTheTimes : Obligations.CycleSumsMatchTheTimes := by
  intro i s cycles t hc ht
  cases i with
  | br7 aa | undefined op => cases hc
  | bf m aa | bm aa | bnc aa | bno aa | bnz aa | bc aa | bp aa | bt m aa | bz aa | insP p | outsP p =>
    cases hc
    cases ht
    refine cycleSum_of_whole_row rfl ?_
    split <;> rfl
  | br aa =>
    have always_taken : (if relativeTaken (.br aa) s.flags s.is then 7 else 6) = 7 := rfl
    cases hc
    cases ht
    refine cycleSum_of_truncated_row rfl ?_
    rw [always_taken]
    decide
  | asdR r | jmp w | lrP0Q | pi w | pk | dci w | lrWJ =>
    cases hc
    cases ht
    exact cycleSum_of_truncated_row rfl (by decide)
  | _ =>
    cases hc
    cases ht
    exact cycleSum_of_whole_row rfl rfl

end Sys2Proof.Machine
end
